-- ==== Sys2Proof/Word.lean ====
section
/-! DEFINITION. The words of the Ulvadon 3160: bytes, tag IDs and the numbers of points, compartments. -/

namespace Sys2Proof

/-- One byte of a frame, of a record memory area or of a response. -/
abbrev Byte := BitVec 8

/-- A tag ID: 8 bytes, the first received being the most significant (Table 11-3). -/
abbrev TagId := BitVec 64

/-- A point P1..P4, numbered from 0. -/
abbrev PointId := Fin 4

/-- A compartment C1..C3, numbered from 0. -/
abbrev CompId := Fin 3

end Sys2Proof
end

