-- ==== Sys2Proof/Syntax.lean ====
section
/-! DEFINITION. The names of the manual (states, modes, reasons, record kinds, result codes), the
operands of the commands, and `Instr`: one constructor for each row of spec/opcode_table.json. -/

namespace Sys2Proof

/-- The six modes (section 0.4, Table 9-2). -/
inductive Mode where
  | starting | commission | standby | run | parked | halted
deriving DecidableEq, Repr, Inhabited

/-- The role of a point (section 2.1). -/
inductive Role where
  | unused | delivery | receipt
deriving DecidableEq, Repr, Inhabited

/-- The states of a point (Figure 2-1). -/
inductive PointState where
  | idle | ident | offered | priming | flowing | slowing | paused | closing | ended | refused
  | outOfService
deriving DecidableEq, Repr, Inhabited

/-- The valve stage of a point (section 2.3). -/
inductive ValveStage where
  | closed | slow | full
deriving DecidableEq, Repr, Inhabited

/-- The presence state of a tag line (section 1.2). -/
inductive Presence where
  | absent | pending | present
deriving DecidableEq, Repr, Inhabited

/-- The end causes of Table 2-4, in the order that numbers them 1..16 (Table 11-8). -/
inductive EndCause where
  | preset | holstered | couplingOpen | stopped | tagLost | tagChanged | noFlow | meterFault
  | estop | brakeReleased | limit | lowLevel | full | halt | valveFault | interrupted
deriving DecidableEq, Repr, Inhabited

/-- The refusal reasons of R192, in the order of their codes 1..17. -/
inductive RefusalReason where
  | unknownTag | barred | wrongProduct | estop | brake | parkPending | halted | stopped
  | confirmTimeout | tagChanged | compartmentBusy | journalFull | noAllowance | tankCapacity
  | noStock | noSpace | full
deriving DecidableEq, Repr, Inhabited

/-- The result codes of R192, in the order of their codes 00h..11h. -/
inductive Result where
  | accepted | none | notReady | reject | wrongMode | refused | wrongState | wrongRole | invalid
  | notHolstered | journalFull | compartmentBusy | notFound | wrongKind | wrongShift
  | alreadyVoided | locked | timeNotSet
deriving DecidableEq, Repr, Inhabited

/-- The transmitter states of Table 5-5. -/
inductive TxState where
  | off | idle | quiet | backoff | defer | sending
deriving DecidableEq, Repr, Inhabited

/-- The receiver states of Table 5-1. -/
inductive RxState where
  | off | hunt | frame
deriving DecidableEq, Repr, Inhabited

/-- The status of a finished frame in the receive ring (R102). -/
inductive FrameStatus where
  | good | crcError | lengthError | gapError
deriving DecidableEq, Repr, Inhabited

/-- The state of a peer entry (Table 6-1). -/
inductive PeerState where
  | unknown | active | silent | lost
deriving DecidableEq, Repr, Inhabited

/-- The probe state of a compartment (R130). -/
inductive ProbeState where
  | unsampled | valid | fault
deriving DecidableEq, Repr, Inhabited

/-- The metrology status (R173). -/
inductive MetrologyStatus where
  | unchecked | good | failed
deriving DecidableEq, Repr, Inhabited

/-- The six record kinds, in the order of their codes 1..6 (Table 11-7). -/
inductive RecordKind where
  | delivery | receipt | void | shiftClose | stocktake | calibration
deriving DecidableEq, Repr, Inhabited

/-- The two image areas (section 9.1). -/
inductive Area where
  | a | b
deriving DecidableEq, Repr, Inhabited

/-- What caused the last reset (R179). -/
inductive RestartReason where
  | powerOn | request
deriving DecidableEq, Repr, Inhabited

/-- What caused the last wake (R187). -/
inductive WakeReason where
  | switch (p : PointId) | request
deriving DecidableEq, Repr, Inhabited

/-- What a check area of a record is left as when the write into it is cut short (R153). -/
inductive AreaCut where
  | before | torn | after
deriving DecidableEq, Repr, Inhabited

/-- The attention causes of Table 10-2. -/
inductive Cause where
  | none | halt | estop | point (p : PointId) | journal | stock | link
deriving DecidableEq, Repr, Inhabited

/-- Which detail a POINT cause carries (Table 10-2). -/
inductive PointDetailKind where
  | offer | refused | ended
deriving DecidableEq, Repr, Inhabited

/-- What a response of PARK, WAKE, HOLD_PRICES or RELEASE_PRICES says (R163, R185, R187). -/
inductive Said where
  | parked | parkPending | parkCancelled | modeWasRun | woken
  | holdSet | holdAlreadySet | released | noHoldSet
deriving DecidableEq, Repr, Inhabited

/-- The names that a response carries and to which the manual gives no code. -/
inductive Name where
  | pointState (x : PointState)
  | valve (x : ValveStage)
  | presence (x : Presence)
  | tx (x : TxState)
  | rx (x : RxState)
  | peer (x : PeerState)
  | probe (x : ProbeState)
  | metrology (x : MetrologyStatus)
  | counting (x : Bool)
  | staging (x : Bool)
  | restart (x : RestartReason)
  | wake (x : WakeReason)
  | cause (x : Cause)
  | detail (x : PointDetailKind)
  | switch (x : Option Bool)
  | said (x : Said)
  | outcome (x : Bool)
deriving DecidableEq, Repr, Inhabited

/-- The two lines of a meter's quadrature pair (section 3.2). -/
inductive MeterLine where
  | a | b
deriving DecidableEq, Repr, Inhabited

/-- What the temperature sensor interface gives (section 3.4): a temperature in 0.1 °C, or the
indication that the sensor is open or shorted. -/
inductive TempReading where
  | tenths (t : Int) | absent
deriving DecidableEq, Repr, Inhabited

/-- What the probe line gives when a sample is due (R129): a level in 0.1 mm, a reading it marks as
a fault, or no reading. -/
inductive ProbeReading where
  | level (l : Nat) | faulty | missing
deriving DecidableEq, Repr, Inhabited

/-- The levels of the seven switch inputs at one sample (Table 1-1). `true` is LIFTED on a delivery
or unused point, CLOSED on a receipt point, APPLIED on PARK_BRAKE, ASSERTED on ESTOP and CLOSED on
CAL; `false` is HOLSTERED, OPEN, RELEASED, RELEASED and OPEN. -/
structure SwitchLevels where
  points : Vector Bool 4
  brake : Bool
  estop : Bool
  cal : Bool
deriving DecidableEq, Repr

/-- The commands: the operations and events of spec/opcode_table.json, one constructor each. The
requests of the terminal carry the fields of their bodies (Table 11-9) as they stand in the frame;
the events carry what the line concerned shows at that moment. -/
inductive Instr where
  | powerOn
  | reset
  | terminalExchange (frame : List Byte)
  | requestComplete
  | loadImageBegin (total : BitVec 16)
  | loadImageData (offset : BitVec 16) (bytes : List Byte)
  | loadImageEnd
  | commission
  | setTime (time : BitVec 32)
  | start
  | park (poll wake : Byte)
  | wake
  | confirm (point : Byte) (volume : BitVec 32) (operator : BitVec 16)
  | manualId (point : Byte) (fleet : BitVec 16)
  | stop (point : Byte)
  | restore (point : Byte)
  | setPrice (product : Byte) (price : BitVec 32)
  | holdPrices
  | releasePrices
  | void (seq : BitVec 32)
  | readJournal (mode filter count : Byte)
  | exportDone (seq : BitVec 32)
  | stocktake (compartment : Byte) (volume : BitVec 32)
  | purgeLink
  | readPoint (point : Byte)
  | readAccount (account : Byte)
  | readStock
  | readView (fleet : BitVec 16)
  | readPeers
  | readLink
  | readStatus
  | readAttention
  | readConditions
  | readFaults
  | switchSample (levels : SwitchLevels)
  | tagCharacterReceived (p : PointId) (char : Byte) (stopBit : Bool)
  | tagByteTaken (p : PointId)
  | tagTimeoutError (p : PointId)
  | tagLossTimerExpiry (p : PointId)
  | confirmWindowExpiry (p : PointId)
  | primeTimeExpiry (p : PointId)
  | noFlowTimerExpiry (p : PointId)
  | pauseGraceExpiry (p : PointId)
  | closeSettleExpiry (p : PointId) (ms : Nat) (temp : TempReading)
  | closeTimeout (p : PointId) (ms : Nat) (temp : TempReading)
  | meterEdge (p : PointId) (line : MeterLine)
  | doubleTransition (p : PointId)
  | intervalEnd (p : PointId) (temp : TempReading)
  | stoppedTemperatureSample (p : PointId) (temp : TempReading)
  | checkpointWriteComplete (p : PointId)
  | holdExpiry (peer fleet : Nat)
  | quietWaitComplete
  | backoffEnd
  | carrierAppears
  | carrierDrops
  | transmissionEnd
  | jammed
  | linkCharacterReceived (char : Byte) (stopBit : Bool)
  | gapError
  | frameTaken
  | duplicateIdCeases
  | siteTimeTick
  | peerSilent (station : Nat)
  | peerLost (station : Nat)
  | tallyTimerExpiry
  | probeSample (readings : Vector ProbeReading 3)
  | varianceCheck (c : CompId)
  | restockEntryAgeing (station : Nat)
  | checkTimerExpiry
  | metrologyCheckComplete (changed : List Host.Cell) (worn : BitVec 32)
  | powerLoss
deriving DecidableEq, Repr

end Sys2Proof
end

