-- ==== Sys2Proof/Config.lean ====
section
/-! DEFINITION. The free values: constants with no body for what the manual leaves open. Nothing can
be proved of their values, so a claim that holds, holds whatever the controller does there. -/

namespace Sys2Proof

/-- The random number behind the `n`-th free choice when a backoff is drawn (R96): the number of
slots is this value modulo 2^e. -/
opaque Config.backoffDraw (n : Nat) : Nat

/-- The order in which the reports of one switch sample are taken, as the code of a permutation
(section 2.4, R32, R187: "either may be taken first"). -/
opaque Config.reportOrder (n : Nat) : Nat

/-- How many of the indivisible record memory writes of a request in work have landed when power is
lost or a reset discards the request (R148). -/
opaque Config.landedWrites (n : Nat) : Nat

/-- What the write of a checkpoint into an area is left as when it is cut short (R153). -/
opaque Config.areaCut (n : Nat) (p : PointId) : AreaCut

/-- The byte a response carries for a name to which the manual gives no code (R192 fixes the width,
one byte, and not the value). -/
opaque Config.nameCode (x : Name) : Byte

/-- The book stock from which the rebuild of R135 starts when record memory holds no baseline for a
present compartment (a commit cut short between its first and second step, R168). -/
opaque Config.unbasedStock (c : CompId) : Int

end Sys2Proof
end

