-- ==== Sys2Proof/Machine/State.lean ====
section
/-! DEFINITION. Everything the manual gives the controller, as plain data: one structure per block of
Table 0-1, the record memory, and the queue of commands that wait. Each `reset` definition holds the
values its block takes at power-on and at RESET. Volumes are in mL, temperatures in 0.1 °C, times in
seconds of site time. -/

namespace Sys2Proof.Machine

/-- Why a step could stop with a fault. The block has no fault: every command has an effect in every
state (R178 and R177 make even a refused or malformed request an effect), so there is no
constructor, which is safe. -/
inductive Fault where
deriving DecidableEq, Repr

/-- Why a command could be turned away by the model itself. -/
inductive Refusal where
  /-- Raised by an arm of `exec` whose command has no meaning yet (safe). No arm of this model
  raises it. -/
  | notModelled (mnemonic : String)
deriving DecidableEq, Repr

/-! ### The values read from the image (section 9.1) -/

/-- A roster record (Table 1-5). Bit j of `products` permits product j + 1. -/
structure RosterRecord where
  fleet : Nat
  tag : TagId
  account : Nat
  products : BitVec 8
  allowance : Option Nat
  tank : Option Nat
  barred : Bool
deriving DecidableEq, Repr

/-- The parameters of a point in use (Table 2-2), after the clamps of R17. -/
structure PointParams where
  role : Role
  compartment : CompId
  autoConfirm : Bool
  minFill : Nat
  defaultPreset : Nat
  slowdown : Nat
  primeTime : Nat
  noFlowTime : Nat
  pauseGrace : Nat
  tagLoss : Nat
  settleTime : Nat
  faultLimit : Nat
deriving DecidableEq, Repr

/-- A point with no hose (R17): no parameters. -/
def PointParams.unused : PointParams :=
  ⟨.unused, 0, false, 0, 0, 0, 0, 0, 0, 0, 0, 0⟩

/-- The metering values of a point (R45): K, the band thresholds and the band factors. -/
structure MeterParams where
  k : Nat
  t1 : Nat
  t2 : Nat
  t3 : Nat
  f : Vector Int 4
deriving DecidableEq, Repr

/-- The metering values of a product (R45): α and the compensation setting. -/
structure ProductParams where
  alpha : Nat
  compensated : Bool
deriving DecidableEq, Repr

/-- The parameters of a present compartment (Table 7-1). -/
structure CompParams where
  product : Nat
  capacity : Nat
  reserve : Nat
  ullage : Nat
  highLevel : Nat
  askLevel : Nat
  clearLevel : Nat
  tolerance : Nat
  opening : Nat
  strapping : List (Nat × Nat)
deriving DecidableEq, Repr

/-- The values in use, read from the image in STARTING. `found` says whether an image was found
(R165); `period` is the tally period P in seconds (R121); `metrologyBytes` are the bytes of the
metrology section as read (R173). -/
structure Params where
  found : Bool
  siteCode : Nat
  stationId : Nat
  bays : Nat
  maxFill : Nat
  period : Nat
  gapReserve : Nat
  gapCap : Nat
  shiftStarts : List Nat
  defaultPrices : Vector Nat 8
  points : Vector PointParams 4
  meters : Vector (Option MeterParams) 4
  products : Vector ProductParams 8
  comps : Vector (Option CompParams) 3
  roster : List RosterRecord
  calibrationCount : Nat
  metrologyBytes : List Byte
deriving DecidableEq, Repr

/-- No image read: no point has a hose, no compartment is present, the roster is empty. -/
def Params.none : Params where
  found := false
  siteCode := 0
  stationId := 0
  bays := 0
  maxFill := 0
  period := 0
  gapReserve := 0
  gapCap := 0
  shiftStarts := []
  defaultPrices := Vector.replicate 8 0
  points := Vector.replicate 4 PointParams.unused
  meters := Vector.replicate 4 Option.none
  products := Vector.replicate 8 ⟨0, false⟩
  comps := Vector.replicate 3 Option.none
  roster := []
  calibrationCount := 0
  metrologyBytes := []

/-! ### Switch Scanner (section 1.1) -/

/-- One input of the scanner: the debounced value, `none` while unsettled, the value of the run being
counted and its length (R1). -/
structure Debounce where
  value : Option Bool
  run : Option Bool
  length : Nat
deriving DecidableEq, Repr

/-- An unsettled input (R2). -/
def Debounce.reset : Debounce := ⟨none, none, 0⟩

/-- The seven inputs (Table 1-1). -/
structure Scanner where
  points : Vector Debounce 4
  brake : Debounce
  estop : Debounce
  cal : Debounce
deriving DecidableEq, Repr

/-- Every input unsettled (R2). -/
def Scanner.reset : Scanner := ⟨Vector.replicate 4 .reset, .reset, .reset, .reset⟩

/-! ### Tag Line Unit (section 1.2) -/

/-- One Tag Line Unit. A timer is `true` while it runs. -/
structure TagLine where
  powered : Bool
  fifo : List Byte
  frame : List Byte
  charTimer : Bool
  presence : Presence
  current : Option TagId
  candidate : Option TagId
  lossTimer : Bool
  timeoutErrors : Nat
  checkErrors : Nat
  overrunErrors : Nat
deriving DecidableEq, Repr

/-- Powered down, ABSENT, error counts 0 (R5). -/
def TagLine.reset : TagLine := ⟨false, [], [], false, .absent, none, none, false, 0, 0, 0⟩

/-! ### Point Controller (Chapter 2) -/

/-- The fill context (Table 2-3); `named` is the fleet number and account of the machine a refusal
from IDENT names (R19). -/
structure FillContext where
  machine : Option RosterRecord
  tag : Option TagId
  manual : Bool
  offer : Option Nat
  request : Option Nat
  operator : Option Nat
  preset : Option Nat
  price : Option Nat
  slot : Option Nat
  seq : Option Nat
  endReason : Option EndCause
  disputed : Bool
  refusal : Option RefusalReason
  named : Option (Nat × Nat)
deriving DecidableEq, Repr

/-- The empty fill context. -/
def FillContext.empty : FillContext :=
  ⟨none, none, false, none, none, none, none, none, none, none, none, false, none, none⟩

/-- The timers of a point; `true` while the timer runs. -/
structure PointTimers where
  confirm : Bool
  prime : Bool
  noFlow : Bool
  grace : Bool
  settle : Bool
  closeTimeout : Bool
deriving DecidableEq, Repr

/-- Every timer stopped. -/
def PointTimers.stopped : PointTimers := ⟨false, false, false, false, false, false⟩

/-- One Point Controller. `counted` says whether a forward count has been made since the point last
entered PRIMING (R27), `outMark` whether the point is marked to go OUT_OF_SERVICE (R37). -/
structure Point where
  state : PointState
  valve : ValveStage
  timers : PointTimers
  counted : Bool
  outMark : Bool
  ctx : FillContext
deriving DecidableEq, Repr

/-- IDLE, both stages closed, every timer stopped, the context empty (R18). -/
def Point.reset : Point := ⟨.idle, .closed, .stopped, false, false, .empty⟩

/-! ### Metering Unit (Chapter 3) -/

/-- One metering channel (Table 3-1), with the levels of its two meter lines as a phase of Table 3-2
(`pin`). `live` is R; `gross`, `net`, `tm` are those of the last interval end. -/
structure Channel where
  pin : Fin 4
  counting : Bool
  phase : Fin 4
  lastEdge : Option MeterLine
  cleanRun : Nat
  faults : Nat
  live : Int
  interval : Int
  intervalTimer : Bool
  elapsed : Nat
  c : Int
  w : Int
  rpos : Int
  stopTarget : Option Int
  slowTarget : Option Int
  lastBand : Fin 4
  lastTemp : Int
  tm : Int
  gross : Int
  net : Int
  uncompensated : Bool
  backflow : Bool
  overrun : Bool
  tempGood : Bool
deriving DecidableEq, Repr

/-- STOPPED, everything at the values of R46; the lines keep their levels. -/
def Channel.reset (pin : Fin 4) : Channel :=
  ⟨pin, false, 0, none, 0, 0, 0, 0, false, 0, 0, 0, 0, none, none, 0, 150, 150, 0, 0,
    false, false, false, true⟩

/-! ### Allowance Unit (Chapter 4) -/

/-- An own delivery fill now open (R70). -/
structure OpenPreset where
  point : PointId
  fleet : Nat
  preset : Nat
deriving DecidableEq, Repr

/-- A peer's reported cumulative net volume for a machine (R72). -/
structure Contribution where
  peer : Nat
  fleet : Nat
  value : Nat
deriving DecidableEq, Repr

/-- A fill a peer has opened and not yet closed (R75). -/
structure Hold where
  peer : Nat
  fleet : Nat
  volume : Nat
  expiry : Nat
deriving DecidableEq, Repr

/-- The consumption view (Table 4-1). `own` lists the machines whose own shift total is above 0, by
ascending fleet number. -/
structure Allowance where
  own : List (Nat × Nat)
  openPresets : List OpenPreset
  contributions : List Contribution
  holds : List Hold
  unknownFleet : Nat
  contributionRefusals : Nat
  holdRefusals : Nat
deriving DecidableEq, Repr

/-- The empty view (R69). -/
def Allowance.reset : Allowance := ⟨[], [], [], [], 0, 0, 0⟩

/-! ### Link Controller (Chapter 5) -/

/-- The body of a bulletin (Table 11-2). In a TALLY, `fraction` is `none` for FFFFh. -/
inductive BulletinBody where
  | openFill (fleet hold lifetime point : Nat)
  | closeFill (fleet cumulative net point : Nat)
  | tally (round index count : Nat) (fraction : Option Nat) (entries : List (Nat × Nat))
  | bayAsk (fraction : Nat)
  | bayDone
deriving DecidableEq, Repr

/-- A bulletin with its header (Table 11-1). -/
structure Bulletin where
  siteCode : Nat
  station : Nat
  epoch : Nat
  seq : Nat
  shift : Nat
  body : BulletinBody
deriving DecidableEq, Repr

/-- A bulletin of the transmit queue (R93). `stamp` rises with the order of queueing among the
bulletins present, so that the oldest can be told (section 0.6, "oldest"; R94). -/
structure Queued where
  bulletin : Bulletin
  busy : Nat
  urgent : Bool
  stamp : Nat
deriving DecidableEq, Repr

/-- A slot of the receive ring (R102); header and body of a GOOD frame. -/
structure RingSlot where
  status : FrameStatus
  bytes : List Byte
deriving DecidableEq, Repr

/-- The link counters (Table 5-7). -/
structure LinkCounters where
  queued : Nat
  transmitted : Nat
  busy : Nat
  dropped : Nat
  displaced : Nat
  purged : Nat
  jam : Nat
  good : Nat
  crcErrors : Nat
  lengthErrors : Nat
  gapErrors : Nat
  formatErrors : Nat
  overruns : Nat
  duplicateId : Nat
deriving DecidableEq, Repr

/-- The Link Controller (Table 5-1). `carrier` is the level of the carrier-detect input; `lastAA` says
whether the character before this one was AAh (R101); `air` is the frame now or last on the air. -/
structure Link where
  queue : List Queued
  nextSeq : Nat
  tx : TxState
  draw : Nat
  carrier : Bool
  jamTimer : Bool
  rx : RxState
  lastAA : Bool
  frame : List Byte
  ring : List RingSlot
  counters : LinkCounters
  jammed : Bool
  duplicate : Bool
  air : List Byte
deriving DecidableEq, Repr

/-- Queue and ring empty, both halves OFF (R87); the carrier-detect input keeps its level. -/
def Link.reset (carrier : Bool) : Link :=
  ⟨[], 0, .off, 0, carrier, false, .off, false, [], [],
    ⟨0, 0, 0, 0, 0, 0, 0, 0, 0, 0, 0, 0, 0, 0⟩, false, false, []⟩

/-! ### Peer and Shift Unit (Chapter 6) -/

/-- A peer entry (Table 6-1). -/
structure Peer where
  state : PeerState
  epoch : Option Nat
  last : Option Nat
  g : Nat
  h : Nat
  round : Option Nat
  parts : Option Nat
  mask : BitVec 14
  complete : Bool
  heard : Option Nat
deriving DecidableEq, Repr

/-- UNKNOWN (R109). -/
def Peer.reset : Peer := ⟨.unknown, none, none, 0, 0, none, none, 0, false, none⟩

/-- The tally round in progress (Table 6-4). -/
structure Round where
  number : Nat
  list : List Nat
  parts : Nat
  next : Nat
  urgent : Bool
deriving DecidableEq, Repr

/-- The Peer and Shift Unit; `table` is indexed by station ID less 1. -/
structure PeerUnit where
  table : Vector Peer 32
  duplicates : Nat
  stale : Nat
  epochChanges : Nat
  adopted : Nat
  siteTime : Option Nat
  shift : Option Nat
  tallyTimer : Bool
  pendingCount : Nat
  nextRound : Nat
  round : Option Round
  warmUp : Bool
deriving DecidableEq, Repr

/-- The values of R109, R117, R119 and R121. -/
def PeerUnit.reset : PeerUnit :=
  ⟨Vector.replicate 32 .reset, 0, 0, 0, 0, none, none, false, 0, 0, none, false⟩

/-! ### Stock Unit (Chapter 7) -/

/-- The state of a compartment (Table 7-2); `quiet` is `none` while the quiet timer is stopped. -/
structure Comp where
  book : Int
  probe : ProbeState
  level : Option Nat
  volume : Option Nat
  lastGood : Option Nat
  quiet : Option Nat
  varianceCount : Nat
  variance : Bool
  probeFault : Bool
deriving DecidableEq, Repr

/-- The values of R128. The manual gives the book stock no value before the rebuild of R135; that it
holds 0 until then, and through COMMISSION, is the model's choice (log entry 24). -/
def Comp.reset : Comp := ⟨0, .unsampled, none, none, none, none, 0, false, false⟩

/-- An entry of the restock queue (R141). -/
structure RestockEntry where
  station : Nat
  fraction : Nat
  refresh : Nat
deriving DecidableEq, Repr

/-- The Stock Unit. `ownFraction` is the own fraction at the last evaluation (R141), `startedAt` the
site time of START (R130). `probeLines` is what the probe line of each compartment gives when it is sampled
(R129): lines from outside, which a reset does not touch (log entries 12 and 14). -/
structure Stock where
  comps : Vector Comp 3
  queue : List RestockEntry
  active : Bool
  displacedMark : Bool
  ownFraction : Nat
  displaced : Nat
  refused : Nat
  turn : Bool
  startedAt : Option Nat
  probeLines : Vector ProbeReading 3
deriving DecidableEq, Repr

/-- The values of R128; the probe lines keep what they give. -/
def Stock.reset (probeLines : Vector ProbeReading 3) : Stock :=
  ⟨Vector.replicate 3 .reset, [], false, false, 0, 0, 0, false, none, probeLines⟩

/-! ### Journal Controller (Chapter 8) -/

/-- A checkpoint (R65). -/
structure Checkpoint where
  r : Int
  c : Int
  w : Int
  rpos : Int
  elapsed : Nat
  uncompensated : Bool
  backflow : Bool
deriving DecidableEq, Repr, Inhabited

/-- The zero checkpoint. -/
def Checkpoint.zero : Checkpoint := ⟨0, 0, 0, 0, 0, false, false⟩

/-- One checkpoint area of a slot; `ok` says whether its check value holds (R153). -/
structure CheckArea where
  ok : Bool
  checkpoint : Checkpoint
deriving DecidableEq, Repr, Inhabited

/-- The fields of a fill record besides the common part (Table 8-2). -/
structure FillRecord where
  timeClosed : Option Nat
  point : PointId
  compartment : CompId
  product : Nat
  fleet : Option Nat
  account : Option Nat
  price : Option Nat
  operator : Nat
  manual : Bool
  uncompensated : Bool
  backflow : Bool
  overrun : Bool
  disputed : Bool
  endReason : Option EndCause
  preset : Nat
  gross : Int
  net : Int
  tm : Int
  cost : Option Int
  calibrationCount : Nat
  areaA : CheckArea
  areaB : CheckArea
deriving DecidableEq, Repr, Inhabited

/-- The content of a record by its kind (Tables 8-2 and 8-3). -/
inductive RecordBody where
  | fill (receipt : Bool) (f : FillRecord)
  | void (seq : Nat)
  | shiftClose (shift : Nat) (nets : Vector Int 8) (deliveries voids : Nat)
  | stocktake (c : CompId) (volume : Nat)
  | calibration (old new : BitVec 32) (count : Nat)
deriving DecidableEq, Repr, Inhabited

/-- A journal record: the common part of Table 11-7 and the body. `time` is the time opened of a
fill, the time written of another kind. -/
structure Record where
  seq : Nat
  closed : Bool
  voided : Bool
  exported : Bool
  station : Option Nat
  epoch : Nat
  shift : Option Nat
  time : Option Nat
  body : RecordBody
deriving DecidableEq, Repr, Inhabited

/-- A slot that has held a record: held while the record is in the ring, released after. A slot that
has never held a record is not listed (section 8.1). -/
structure Slot where
  held : Bool
  record : Record
deriving DecidableEq, Repr

/-- The totals of an account for the current shift (section 8.6). -/
structure Account where
  net : Int
  cost : Int
  count : Int
deriving DecidableEq, Repr

/-- The shift figures (section 8.6). -/
structure ShiftFigures where
  nets : Vector Int 8
  deliveries : Nat
  voids : Nat
deriving DecidableEq, Repr

/-- The figures of an empty shift. -/
def ShiftFigures.zero : ShiftFigures := ⟨Vector.replicate 8 0, 0, 0⟩

/-- The working state of the Journal Controller (R147). The record run is the `held` slots from
position `oldest` on, in ring order. `writing` and `waiting` are, for each point, the checkpoint
being written into its slot and the one that waits (R153). -/
structure Journal where
  oldest : Nat
  held : Nat
  nextSeq : Nat
  setAside : Nat
  lost : Nat
  cursor : Nat
  low : Bool
  full : Bool
  accounts : Vector Account 32
  figures : ShiftFigures
  current : Vector Nat 8
  pending : Vector Nat 8
  hold : Bool
  writing : Vector (Option Checkpoint) 4
  waiting : Vector (Option Checkpoint) 4
deriving DecidableEq, Repr

/-- The values of R147 and R162 before the scan and the image. -/
def Journal.reset : Journal :=
  ⟨0, 0, 1, 0, 0, 0, false, false, Vector.replicate 32 ⟨0, 0, 0⟩, .zero,
    Vector.replicate 8 0, Vector.replicate 8 0, false, Vector.replicate 4 none, Vector.replicate 4 none⟩

/-! ### Record memory (section 0.2) -/

/-- The baseline of a compartment (R135). -/
structure Baseline where
  value : Int
  seq : Nat
deriving DecidableEq, Repr

/-- The external record memory: the selector cell (`none` when it names neither area), the two image
areas, the start counter cell, the journal ring by slot position and the baselines. -/
structure RecordMemory where
  selector : Option Area
  areaA : List Host.Cell
  areaB : List Host.Cell
  startCounter : BitVec 32
  slots : List (Nat × Slot)
  baselines : Vector (Option Baseline) 3
deriving DecidableEq, Repr

/-- A record memory that has never held anything (R147, R165, R170). -/
def RecordMemory.blank : RecordMemory := ⟨none, [], [], 0, [], Vector.replicate 3 none⟩

/-! ### Metrology Check Unit (Chapter 9) -/

/-- The three codes of a metrology check (R173). -/
structure Codes where
  stored : BitVec 32
  memory : BitVec 32
  working : BitVec 32
deriving DecidableEq, Repr

/-- A load in STAGING (R166). -/
structure Load where
  total : Nat
  received : Nat
deriving DecidableEq, Repr

/-- The time and outcome of a metrology check (R173). -/
structure LastCheck where
  time : Option Nat
  passed : Bool
deriving DecidableEq, Repr

/-- The Metrology Check Unit; `load` is `none` in IDLE, `timer` the seconds left on the check timer,
`cal` the value of CAL last reported (R4), `recovery` the recovery list (R171). -/
structure Metrology where
  load : Option Load
  status : MetrologyStatus
  startCode : Option (BitVec 32)
  reference : Option (BitVec 32)
  timer : Option Nat
  checking : Bool
  checkPending : Bool
  last : Option LastCheck
  codes : Option Codes
  recovery : List Nat
  epoch : Nat
  cal : Option Bool
deriving DecidableEq, Repr

/-- The values of R169 and R4. -/
def Metrology.reset : Metrology :=
  ⟨none, .unchecked, none, none, none, false, false, none, none, [], 0, none⟩

/-! ### Terminal Port (Chapter 10) -/

/-- An item of a response body: a number of a given width in bytes, an item that is none (all one
bits), a name to which the manual gives no code, or bytes as they stand. -/
inductive Item where
  | num (width : Nat) (value : Int)
  | none (width : Nat)
  | name (x : Name)
  | bytes (b : List Byte)
deriving DecidableEq, Repr

/-- A response less its status byte, which is composed as it is sent (R176, R179). -/
structure Response where
  code : Byte
  result : Result
  body : List Item
deriving DecidableEq, Repr

/-- The response NONE (R176). -/
def Response.none : Response := ⟨0, .none, []⟩

/-- The latest detail of a POINT cause (Table 10-2). -/
inductive PointDetail where
  | offer (volume : Nat)
  | refused (reason : RefusalReason)
  | ended (reason : Option EndCause)
deriving DecidableEq, Repr

/-- The details of the JOURNAL cause; pending while one is held. -/
structure JournalCause where
  low : Bool
  full : Bool
  lost : Bool
deriving DecidableEq, Repr

/-- The details of the STOCK cause. -/
structure StockCause where
  probe : Vector Bool 3
  variance : Vector Bool 3
  turn : Bool
deriving DecidableEq, Repr

/-- The details of the LINK cause; `lost` holds the station IDs of the peers lost. -/
structure LinkCause where
  jammed : Bool
  duplicate : Bool
  viewFull : Bool
  overrun : Bool
  lost : List Nat
deriving DecidableEq, Repr

/-- The attention causes pending, with their details (Table 10-2). -/
structure Attention where
  halt : Option Codes
  estop : Option (Option Nat)
  points : Vector (Option PointDetail) 4
  journal : JournalCause
  stock : StockCause
  link : LinkCause
deriving DecidableEq, Repr

/-- No details. -/
def JournalCause.clear : JournalCause := ⟨false, false, false⟩
/-- No details. -/
def StockCause.clear : StockCause := ⟨Vector.replicate 3 false, Vector.replicate 3 false, false⟩
/-- No details. -/
def LinkCause.clear : LinkCause := ⟨false, false, false, false, []⟩

/-- No cause pending (R180). -/
def Attention.clear : Attention := ⟨none, none, Vector.replicate 4 none, .clear, .clear, .clear⟩

/-- The condition flags (R183). -/
structure CondFlags where
  variance : Vector Bool 3
  probeFault : Vector Bool 3
  tempAbsent : Vector Bool 4
  jammed : Bool
  duplicate : Bool
  viewFull : Bool
  journalLow : Bool
  journalFull : Bool
  portError : Bool
deriving DecidableEq, Repr

/-- Every flag clear. -/
def CondFlags.clear : CondFlags :=
  ⟨Vector.replicate 3 false, Vector.replicate 3 false, Vector.replicate 4 false,
    false, false, false, false, false, false⟩

/-- The fault marks of a point (R184). -/
structure FaultMarks where
  meter : Bool
  valve : Bool
  noFlow : Bool
  tagLine : Bool
  temp : Bool
deriving DecidableEq, Repr

/-- No mark. -/
def FaultMarks.clear : FaultMarks := ⟨false, false, false, false, false⟩

/-- The Terminal Port with its wake logic. `fresh` says whether the response of the buffer is still to
be sent; `inWork` is the request in work and `takenCal` the value of CAL that was taken with it (R4); `sent`
is the response frame last clocked out. -/
structure Port where
  response : Response
  fresh : Bool
  inWork : Option Instr
  takenCal : Option Bool
  sent : List Byte
  portErrors : Nat
  restartReason : RestartReason
  restarted : Bool
  woke : Bool
  wakeReason : Option WakeReason
  pollCode : Nat
  wakeEnables : Vector Bool 4
  parkPending : Bool
  attention : Attention
  attentionOut : Bool
  flags : CondFlags
  faults : Vector FaultMarks 4
deriving DecidableEq, Repr

/-- The values of R176, R177, R179, R180, R183, R184 and R185 (poll code 7, no switch enabled, until
an image is read). -/
def Port.reset (reason : RestartReason) : Port :=
  ⟨.none, true, none, none, [], 0, reason, true, false, none, 7, Vector.replicate 4 false, false,
    .clear, false, .clear, Vector.replicate 4 .clear⟩

/-! ### The machine -/

/-- The whole machine. `pending` is the queue of commands that wait, first in first out; `powered`
says whether power is applied; `free` counts the free choices made. -/
structure State where
  pending : List Instr
  powered : Bool
  mode : Mode
  params : Params
  scanner : Scanner
  lines : Vector TagLine 4
  points : Vector Point 4
  meters : Vector Channel 4
  allowance : Allowance
  link : Link
  peers : PeerUnit
  stock : Stock
  journal : Journal
  metrology : Metrology
  port : Port
  rm : RecordMemory
  free : Nat
deriving DecidableEq, Repr

/-- The machine right after power is first applied to a controller whose record memory has never held
anything, before the sequence of STARTING (R169, R170 step 1). -/
def State.reset : State where
  pending := []
  powered := true
  mode := .starting
  params := .none
  scanner := .reset
  lines := Vector.replicate 4 .reset
  points := Vector.replicate 4 .reset
  meters := Vector.replicate 4 (.reset 0)
  allowance := .reset
  link := .reset false
  peers := .reset
  stock := .reset (Vector.replicate 3 .missing)
  journal := .reset
  metrology := .reset
  port := .reset .powerOn
  rm := .blank
  free := 0

end Sys2Proof.Machine
end

