-- ==== Sys2Proof/Machine/Bytes.lean ====
section
/-! DEFINITION. How numbers are formed into bytes and read from them (section 0.6: most significant
byte first), the two CRC computations (R189, R190), and the codes the manual gives to names (R192,
Tables 11-2, 11-7 and 11-8). -/

namespace Sys2Proof

/-- The result codes of R192. -/
def Result.code : Result → Byte
  | .accepted => 0x00 | .none => 0x01 | .notReady => 0x02 | .reject => 0x03 | .wrongMode => 0x04
  | .refused => 0x05 | .wrongState => 0x06 | .wrongRole => 0x07 | .invalid => 0x08
  | .notHolstered => 0x09 | .journalFull => 0x0A | .compartmentBusy => 0x0B | .notFound => 0x0C
  | .wrongKind => 0x0D | .wrongShift => 0x0E | .alreadyVoided => 0x0F | .locked => 0x10
  | .timeNotSet => 0x11

/-- The refusal reason codes of R192. -/
def RefusalReason.code : RefusalReason → Nat
  | .unknownTag => 1 | .barred => 2 | .wrongProduct => 3 | .estop => 4 | .brake => 5
  | .parkPending => 6 | .halted => 7 | .stopped => 8 | .confirmTimeout => 9 | .tagChanged => 10
  | .compartmentBusy => 11 | .journalFull => 12 | .noAllowance => 13 | .tankCapacity => 14
  | .noStock => 15 | .noSpace => 16 | .full => 17

/-- End reasons are numbered 1..16 in the order of Table 2-4 (Table 11-8). -/
def EndCause.code : EndCause → Nat
  | .preset => 1 | .holstered => 2 | .couplingOpen => 3 | .stopped => 4 | .tagLost => 5
  | .tagChanged => 6 | .noFlow => 7 | .meterFault => 8 | .estop => 9 | .brakeReleased => 10
  | .limit => 11 | .lowLevel => 12 | .full => 13 | .halt => 14 | .valveFault => 15
  | .interrupted => 16

/-- The codes of MODE in the status byte (R192). -/
def Mode.code : Mode → Nat
  | .starting => 0 | .commission => 1 | .standby => 2 | .run => 3 | .parked => 4 | .halted => 5

/-- The role codes of Table 11-6. -/
def Role.code : Role → Nat
  | .unused => 0 | .delivery => 1 | .receipt => 2

/-- The record kind codes of Table 11-7. -/
def RecordKind.code : RecordKind → Nat
  | .delivery => 1 | .receipt => 2 | .void => 3 | .shiftClose => 4 | .stocktake => 5
  | .calibration => 6

end Sys2Proof

namespace Sys2Proof.Machine

/-- The low `w` bytes of `n`, most significant first. -/
def beNat : Nat → Nat → List Byte
  | 0, _ => []
  | w + 1, n => BitVec.ofNat 8 (n / 256 ^ w) :: beNat w n

/-- A signed or unsigned number in `w` bytes, two's complement, most significant byte first. -/
def be (w : Nat) (v : Int) : List Byte := beNat w (v % (256 ^ w : Nat)).toNat

/-- The unsigned number that bytes hold, most significant first. -/
def ofBe (b : List Byte) : Nat := b.foldl (fun n x => n * 256 + x.toNat) 0

/-- The two's complement number that an unsigned number of `w` bytes stands for. -/
def signed (w n : Nat) : Int := if 2 * n < 256 ^ w then (n : Int) else (n : Int) - (256 ^ w : Nat)

/-- `w` bytes of all one bits: an item that is none (R192). -/
def allOnes (w : Nat) : List Byte := List.replicate w 0xFF

/-- A Boolean as the byte 01h or 00h. -/
def flagByte (b : Bool) : Byte := if b then 1 else 0

/-- Bit `i` of a byte set to `b`, the others 0. -/
def bitAt (i : Nat) (b : Bool) : Byte := if b then (1 : Byte) <<< i else 0

/-- One byte taken into the CRC-16 register: `n` of its eight shifts (R189). -/
def crc16Shift : Nat → BitVec 16 → BitVec 16
  | 0, r => r
  | n + 1, r => crc16Shift n (if r.msb then (r <<< 1) ^^^ 0x1021 else r <<< 1)

/-- The CRC-16 of a frame's header and body (R189). -/
def crc16 (b : List Byte) : BitVec 16 :=
  b.foldl (fun r x => crc16Shift 8 (r ^^^ (x.setWidth 16).shiftLeft 8)) 0xFFFF

/-- `n` of the eight shifts of a byte taken into the CRC-32 register (R190). -/
def crc32Shift : Nat → BitVec 32 → BitVec 32
  | 0, r => r
  | n + 1, r => crc32Shift n (if r.getLsbD 0 then (r >>> 1) ^^^ 0xEDB88320 else r >>> 1)

/-- The CRC-32 of a section of the image (R190). -/
def crc32 (b : List Byte) : BitVec 32 :=
  b.foldl (fun r x => crc32Shift 8 (r ^^^ x.setWidth 32)) 0xFFFFFFFF ^^^ 0xFFFFFFFF

/-- The bytes of a response item (R192). -/
def Item.encode : Item → List Byte
  | .num w v => be w v
  | .none w => allOnes w
  | .name x => [Config.nameCode x]
  | .bytes b => b

/-- An item of `w` bytes that may be none. -/
def Item.opt (w : Nat) : Option Nat → Item
  | some n => .num w n
  | Option.none => .none w

/-- A flag of one byte (R192): 01h when set and 00h when clear, values that no rule gives: the model's choice
(log entry 8). -/
def Item.flag (b : Bool) : Item := .num 1 (if b then 1 else 0)

/-- The bytes of a response body (R192). -/
def bodyBytes (b : List Item) : List Byte := b.flatMap Item.encode

end Sys2Proof.Machine
end

