-- ==== Sys2Proof/Machine/Memory.lean ====
section
/-! DEFINITION. The addressed memories: an image area as a canonical list of cells, and the journal's
slots as a canonical list by ring position. -/

namespace Sys2Proof

/-- The content of a slot whose append was cut short before its last write: that of the record it held,
in part overwritten by the record appended (R148). A free value: nothing constrains which part. -/
opaque Config.partWritten (n : Nat) (before appended : Machine.Record) : Machine.Record

end Sys2Proof

namespace Sys2Proof.Machine

/-- What a byte of an image area that no load has written since it was cleared reads as
(DESIGN CHOICE, log entry 4). -/
def clearedByte : Byte := 0

/-- The byte of an image area at an address. -/
def Mem.read : List Host.Cell → Nat → Byte
  | [], _ => clearedByte
  | (a, b) :: m, k => if a = k then b else Mem.read m k

/-- One byte written, the list kept strictly rising with no cell equal to the cleared byte. -/
def Mem.write : List Host.Cell → Nat → Byte → List Host.Cell
  | [], k, v => if v = clearedByte then [] else [(k, v)]
  | (a, b) :: m, k, v =>
    if k < a then (if v = clearedByte then (a, b) :: m else (k, v) :: (a, b) :: m)
    else if k = a then (if v = clearedByte then m else (k, v) :: m)
    else (a, b) :: Mem.write m k v

/-- Bytes written from an address on. -/
def Mem.writeBytes : List Host.Cell → Nat → List Byte → List Host.Cell
  | m, _, [] => m
  | m, k, b :: bs => Mem.writeBytes (Mem.write m k b) (k + 1) bs

/-- `n` bytes read from an address on. -/
def Mem.readBytes (m : List Host.Cell) (k : Nat) : Nat → List Byte
  | 0 => []
  | n + 1 => Mem.read m k :: Mem.readBytes m (k + 1) n

/-- The unsigned number of `w` bytes at an address. -/
def Mem.readBe (m : List Host.Cell) (k w : Nat) : Nat := ofBe (Mem.readBytes m k w)

/-- The canonical form of an image area: strictly rising addresses above `low`, and no cell that holds
the cleared byte. -/
def Mem.wfFrom : Nat → List Host.Cell → Bool
  | _, [] => true
  | low, (a, b) :: m => decide (low ≤ a) && decide (b ≠ clearedByte) && Mem.wfFrom (a + 1) m

/-- The canonical form of an image area. -/
def Mem.wf (m : List Host.Cell) : Bool := Mem.wfFrom 0 m

/-- The slot at a ring position, `none` when it has never held a record. -/
def slotAt : List (Nat × Slot) → Nat → Option Slot
  | [], _ => none
  | (a, x) :: m, k => if a = k then some x else slotAt m k

/-- The slot at a ring position replaced, the list kept strictly rising. -/
def setSlot : List (Nat × Slot) → Nat → Slot → List (Nat × Slot)
  | [], k, v => [(k, v)]
  | (a, x) :: m, k, v =>
    if k < a then (k, v) :: (a, x) :: m
    else if k = a then (k, v) :: m
    else (a, x) :: setSlot m k v

/-- The canonical form of the slots: strictly rising positions. -/
def slotsWfFrom : Nat → List (Nat × Slot) → Bool
  | _, [] => true
  | low, (a, _) :: m => decide (low ≤ a) && slotsWfFrom (a + 1) m

/-- An area of the record memory. -/
def RecordMemory.area (m : RecordMemory) : Area → List Host.Cell
  | .a => m.areaA
  | .b => m.areaB

/-- An area of the record memory replaced. -/
def RecordMemory.setArea (m : RecordMemory) (x : Area) (c : List Host.Cell) : RecordMemory :=
  match x with
  | .a => { m with areaA := c }
  | .b => { m with areaB := c }

/-- The canonical form of the record memory. -/
def RecordMemory.wf (m : RecordMemory) : Bool :=
  Mem.wf m.areaA && Mem.wf m.areaB && slotsWfFrom 0 m.slots

/-- The writes of the record memory: the indivisible ones (R148, R158, R159, R166, R168), and `content`,
the writing of a record's other fields into a slot that is not held, which may be cut short (R148). -/
inductive RmWrite where
  | clearArea (x : Area)
  | byte (x : Area) (address : Nat) (b : Byte)
  | selector (x : Area)
  | baseline (c : CompId) (b : Baseline)
  | slot (position : Nat) (x : Slot)
  | content (position : Nat) (r : Record)
deriving DecidableEq, Repr

/-- Content put into a slot that is not held: the slot keeps its status and, when released, the journal
seq of its last record; a free slot stays free (R148). -/
def putContent (slots : List (Nat × Slot)) (k : Nat) (r : Record) : List (Nat × Slot) :=
  match slotAt slots k with
  | some x => if x.held then slots else setSlot slots k ⟨false, { r with seq := x.record.seq }⟩
  | none => slots

/-- One write carried out. -/
def RecordMemory.write (m : RecordMemory) : RmWrite → RecordMemory
  | .clearArea x => m.setArea x []
  | .byte x k b => m.setArea x (Mem.write (m.area x) k b)
  | .selector x => { m with selector := some x }
  | .baseline c b => { m with baselines := m.baselines.set c (some b) }
  | .slot k x => { m with slots := setSlot m.slots k x }
  | .content k r => { m with slots := putContent m.slots k r }

/-- A sequence of writes carried out in order. -/
def RecordMemory.writeAll (m : RecordMemory) (ws : List RmWrite) : RecordMemory :=
  ws.foldl RecordMemory.write m

/-- The writes that put bytes into an area from an address on. -/
def byteWrites (x : Area) : Nat → List Byte → List RmWrite
  | _, [] => []
  | k, b :: bs => .byte x k b :: byteWrites x (k + 1) bs

end Sys2Proof.Machine
end

