-- ==== Sys2Proof/Machine/Ops.lean ====
section
/-! DEFINITION. The named operations over the state: one accessor and one update for each block, and
the small operations several blocks share. -/

namespace Sys2Proof

/-- A point in PRIMING, FLOWING, SLOWING, PAUSED or CLOSING: its fill is open (R70, R152). -/
def PointState.isOpen : PointState → Bool
  | .priming | .flowing | .slowing | .paused | .closing => true
  | .idle | .ident | .offered | .ended | .refused | .outOfService => false

/-- A point in PRIMING, FLOWING, SLOWING or PAUSED: an end cause moves it to CLOSING (R32). -/
def PointState.endable : PointState → Bool
  | .priming | .flowing | .slowing | .paused => true
  | .idle | .ident | .offered | .closing | .ended | .refused | .outOfService => false

end Sys2Proof

namespace Sys2Proof.Machine

/-- A counter that stops at `top`. -/
def satAdd (top n k : Nat) : Nat := min top (n + k)

/-- A 16-bit counter that goes up by 1 and stops at 65,535. -/
def count16 (n : Nat) : Nat := satAdd 65535 n 1

/-- A 32-bit counter that goes up by 1 and stops at 4,294,967,295. -/
def count32 (n : Nat) : Nat := satAdd 4294967295 n 1

/-- The four points in ascending order. -/
def allPoints : List PointId := [0, 1, 2, 3]

/-- The three compartments in ascending order. -/
def allComps : List CompId := [0, 1, 2]

/-- The point a request names, 1..4 (R192). -/
def pointOf (b : Byte) : Option PointId :=
  match b.toNat with
  | 1 => some 0 | 2 => some 1 | 3 => some 2 | 4 => some 3 | _ => none

/-- The compartment a request names, 1..3 (R192). -/
def compOf (n : Nat) : Option CompId :=
  match n with
  | 1 => some 0 | 2 => some 1 | 3 => some 2 | _ => none

/-- The index 0..7 of a product code 1..8. -/
def productOf (n : Nat) : Option (Fin 8) :=
  if h : 1 ≤ n ∧ n ≤ 8 then some ⟨n - 1, by omega⟩ else none

/-- The index of an account 1..32. -/
def accountOf (n : Nat) : Option (Fin 32) :=
  if h : 1 ≤ n ∧ n ≤ 32 then some ⟨n - 1, by omega⟩ else none

/-- The index of a station ID 1..32 in the peer table. -/
def stationOf (n : Nat) : Option (Fin 32) :=
  if h : 1 ≤ n ∧ n ≤ 32 then some ⟨n - 1, by omega⟩ else none

/-- The 1-based number of a point, as layouts carry it. -/
def pointNo (p : PointId) : Nat := p.val + 1

/-- The sum of a figure over a list. -/
def sumBy {α : Type} (f : α → Nat) : List α → Nat
  | [] => 0
  | x :: xs => f x + sumBy f xs

/-! ### Accessors and updates of the state -/

/-- The Point Controller of a point. -/
def State.point (s : State) (p : PointId) : Point := s.points[p]
/-- The Tag Line Unit of a point. -/
def State.line (s : State) (p : PointId) : TagLine := s.lines[p]
/-- The metering channel of a point. -/
def State.meter (s : State) (p : PointId) : Channel := s.meters[p]
/-- The state of a compartment. -/
def State.comp (s : State) (c : CompId) : Comp := s.stock.comps[c]
/-- The parameters of a point. -/
def State.pp (s : State) (p : PointId) : PointParams := s.params.points[p]
/-- The role of a point. -/
def State.role (s : State) (p : PointId) : Role := (s.pp p).role
/-- The compartment of a point. -/
def State.compartmentOf (s : State) (p : PointId) : CompId := (s.pp p).compartment
/-- The parameters of a compartment, `none` when it is not present. -/
def State.cp (s : State) (c : CompId) : Option CompParams := s.params.comps[c]
/-- The product of a point: that of its compartment (R17), 0 when it has none. -/
def State.productAt (s : State) (p : PointId) : Nat :=
  match s.cp (s.compartmentOf p) with
  | some c => c.product
  | none => 0

/-- The debounced value of a point's switch. -/
def State.switchAt (s : State) (p : PointId) : Option Bool := s.scanner.points[p].value

/-- The mode replaced. -/
def State.setMode (s : State) (m : Mode) : State := { s with mode := m }
/-- The scanner replaced. -/
def State.setScanner (s : State) (x : Scanner) : State := { s with scanner := x }
/-- The Point Controller of a point replaced. -/
def State.setPoint (s : State) (p : PointId) (x : Point) : State :=
  { s with points := s.points.set p x }
/-- The Tag Line Unit of a point replaced. -/
def State.setLine (s : State) (p : PointId) (x : TagLine) : State :=
  { s with lines := s.lines.set p x }
/-- The metering channel of a point replaced. -/
def State.setMeter (s : State) (p : PointId) (x : Channel) : State :=
  { s with meters := s.meters.set p x }
/-- The consumption view replaced. -/
def State.setAllowance (s : State) (x : Allowance) : State := { s with allowance := x }
/-- The Link Controller replaced. -/
def State.setLink (s : State) (x : Link) : State := { s with link := x }
/-- The Peer and Shift Unit replaced. -/
def State.setPeers (s : State) (x : PeerUnit) : State := { s with peers := x }
/-- The Stock Unit replaced. -/
def State.setStock (s : State) (x : Stock) : State := { s with stock := x }
/-- The state of a compartment replaced. -/
def State.setComp (s : State) (c : CompId) (x : Comp) : State :=
  s.setStock { s.stock with comps := s.stock.comps.set c x }
/-- The working state of the Journal Controller replaced. -/
def State.setJournal (s : State) (x : Journal) : State := { s with journal := x }
/-- The Metrology Check Unit replaced. -/
def State.setMetrology (s : State) (x : Metrology) : State := { s with metrology := x }
/-- The Terminal Port replaced. -/
def State.setPort (s : State) (x : Port) : State := { s with port := x }
/-- The record memory replaced. -/
def State.setRm (s : State) (x : RecordMemory) : State := { s with rm := x }
/-- One free choice made. -/
def State.bumpFree (s : State) : State := { s with free := s.free + 1 }

/-- The peer entry of a station, UNKNOWN for a number that is no station ID. -/
def State.peer (s : State) (station : Nat) : Peer :=
  match stationOf station with
  | some i => s.peers.table[i]
  | none => .reset

/-- The peer entry of a station replaced. -/
def State.setPeer (s : State) (station : Nat) (x : Peer) : State :=
  match stationOf station with
  | some i => s.setPeers { s.peers with table := s.peers.table.set i x }
  | none => s

/-- The site time, 0 while it is not set. -/
def State.now (s : State) : Nat := s.peers.siteTime.getD 0

/-- The station's shift number, 0 before START. -/
def State.shiftNo (s : State) : Nat := s.peers.shift.getD 0

/-- Whether START has been taken since the reset: the modes it leads to (Table 9-2). -/
def State.started (s : State) : Bool :=
  match s.mode with
  | .run | .parked | .halted => true
  | .starting | .commission | .standby => false

/-- Whether every point is IDLE. -/
def State.allIdle (s : State) : Bool := allPoints.all (fun p => (s.point p).state == .idle)

/-- A receipt is open on the compartment (R43). -/
def State.receiptOpen (s : State) (c : CompId) : Bool :=
  allPoints.any (fun p => s.role p == .receipt && s.compartmentOf p == c &&
    (match (s.point p).state with
     | .priming | .flowing | .slowing | .closing => true
     | _ => false))

/-- Some fill, delivery or receipt, is open on the compartment (R134, R138). -/
def State.fillOpenOn (s : State) (c : CompId) : Bool :=
  allPoints.any (fun p => s.role p != .unused && s.compartmentOf p == c && (s.point p).state.isOpen)

/-- The roster record of a fleet number (R16). -/
def State.machineByFleet (s : State) (fleet : Nat) : Option RosterRecord :=
  s.params.roster.find? (fun r => r.fleet == fleet && fleet != 0)

/-- The roster record of a tag ID; eight zero bytes match none (R15). -/
def State.machineByTag (s : State) (t : TagId) : Option RosterRecord :=
  s.params.roster.find? (fun r => r.tag == t && t != 0)

/-- Whether a fleet number is in the roster. -/
def State.inRoster (s : State) (fleet : Nat) : Bool := (s.machineByFleet fleet).isSome

end Sys2Proof.Machine
end

