-- ==== Sys2Proof/Machine/Flags.lean ====
section
/-! DEFINITION. Attention causes, condition flags, fault marks, the status byte and the outputs the
controller drives (sections 2.3, 10.3 to 10.5). -/

namespace Sys2Proof.Machine

/-! ### Attention (R180) -/

/-- The attention causes changed. -/
def State.modAttention (s : State) (f : Attention → Attention) : State :=
  s.setPort { s.port with attention := f s.port.attention }

/-- The POINT cause of a point raised; a later detail replaces an earlier one (R44, R180). -/
def raisePoint (p : PointId) (d : PointDetail) (s : State) : State :=
  s.modAttention (fun a => { a with points := a.points.set p (some d) })

/-- The HALT cause raised with the codes found (R174). -/
def raiseHalt (c : Codes) (s : State) : State := s.modAttention (fun a => { a with halt := some c })

/-- The ESTOP cause raised with the time of assertion (R4, Table 10-2). While site time is not set that
time is none, sent as all ones: the model's choice (log entry 28). -/
def raiseEstop (s : State) : State := s.modAttention (fun a => { a with estop := some s.peers.siteTime })

/-- The JOURNAL cause raised: a detail added to those held. -/
def raiseJournal (f : JournalCause → JournalCause) (s : State) : State :=
  s.modAttention (fun a => { a with journal := f a.journal })

/-- The STOCK cause raised: a detail added to those held. -/
def raiseStock (f : StockCause → StockCause) (s : State) : State :=
  s.modAttention (fun a => { a with stock := f a.stock })

/-- The LINK cause raised: a detail added to those held. -/
def raiseLink (f : LinkCause → LinkCause) (s : State) : State :=
  s.modAttention (fun a => { a with link := f a.link })

/-- A peer-lost detail adds its station ID to the set (R180). The set is held, and sent, in the order of
loss: the model's choice (log entry 23). -/
def LinkCause.addLost (station : Nat) (c : LinkCause) : LinkCause :=
  { c with lost := if c.lost.contains station then c.lost else c.lost ++ [station] }

/-- Whether a JOURNAL detail is held. -/
def JournalCause.isPending (c : JournalCause) : Bool := c.low || c.full || c.lost

/-- Whether a STOCK detail is held. -/
def StockCause.isPending (c : StockCause) : Bool :=
  c.turn || allComps.any (fun k => c.probe[k] || c.variance[k])

/-- Whether a LINK detail is held. -/
def LinkCause.isPending (c : LinkCause) : Bool :=
  c.jammed || c.duplicate || c.viewFull || c.overrun || !c.lost.isEmpty

/-- The pending causes by falling priority: Table 10-2, HALT before ESTOP, points ascending (R181). That
READ_ATTENTION lists every pending cause in this order is the model's choice (log entry 23). -/
def Attention.pending (a : Attention) : List Cause :=
  (if a.halt.isSome then [.halt] else []) ++
  (if a.estop.isSome then [.estop] else []) ++
  (allPoints.filter (fun p => a.points[p].isSome)).map Cause.point ++
  (if a.journal.isPending then [.journal] else []) ++
  (if a.stock.isPending then [.stock] else []) ++
  (if a.link.isPending then [.link] else [])

/-- Whether at least one cause is pending. -/
def Attention.isPending (a : Attention) : Bool := !a.pending.isEmpty

/-! ### Condition flags (R183) -/

/-- The condition flags changed. -/
def State.modFlags (s : State) (f : CondFlags → CondFlags) : State :=
  s.setPort { s.port with flags := f s.port.flags }

/-- The VIEW_FULL condition holds while a collection of the view is full (R86). -/
def State.viewFull (s : State) : Bool :=
  decide (512 ≤ s.allowance.contributions.length) || decide (32 ≤ s.allowance.holds.length)

/-- Which conditions hold now (R183); that of PORT_ERROR ceases at once. -/
def State.conditions (s : State) : CondFlags where
  variance := #v[(s.comp 0).variance, (s.comp 1).variance, (s.comp 2).variance]
  probeFault := #v[(s.comp 0).probeFault, (s.comp 1).probeFault, (s.comp 2).probeFault]
  tempAbsent := #v[!(s.meter 0).tempGood, !(s.meter 1).tempGood, !(s.meter 2).tempGood,
    !(s.meter 3).tempGood]
  jammed := s.link.jammed
  duplicate := s.link.duplicate
  viewFull := s.viewFull
  journalLow := s.journal.low
  journalFull := s.journal.full
  portError := false

/-- The flags left set by READ_CONDITIONS: those whose condition still holds (R183). -/
def CondFlags.keepHolding (f now : CondFlags) : CondFlags where
  variance := #v[f.variance[0] && now.variance[0], f.variance[1] && now.variance[1],
    f.variance[2] && now.variance[2]]
  probeFault := #v[f.probeFault[0] && now.probeFault[0], f.probeFault[1] && now.probeFault[1],
    f.probeFault[2] && now.probeFault[2]]
  tempAbsent := #v[f.tempAbsent[0] && now.tempAbsent[0], f.tempAbsent[1] && now.tempAbsent[1],
    f.tempAbsent[2] && now.tempAbsent[2], f.tempAbsent[3] && now.tempAbsent[3]]
  jammed := f.jammed && now.jammed
  duplicate := f.duplicate && now.duplicate
  viewFull := f.viewFull && now.viewFull
  journalLow := f.journalLow && now.journalLow
  journalFull := f.journalFull && now.journalFull
  portError := f.portError && now.portError

/-- The VIEW_FULL flag set by the Allowance Unit (R86). -/
def setViewFullFlag (s : State) : State := s.modFlags (fun f => { f with viewFull := true })

/-! ### The fault summary (R184) -/

/-- A fault event adds its mark to the set of its point. -/
def markFault (p : PointId) (f : FaultMarks → FaultMarks) (s : State) : State :=
  s.setPort { s.port with faults := s.port.faults.set p (f s.port.faults[p]) }

/-- The marks of a point in the order R184 names them. -/
def FaultMarks.list (m : FaultMarks) : List Bool := [m.meter, m.valve, m.noFlow, m.tagLine, m.temp]

/-- Whether the fault summary holds any mark (R188). -/
def State.anyFault (s : State) : Bool := allPoints.any (fun p => s.port.faults[p].list.any id)

/-! ### The status byte (R179, R192) -/

/-- The status byte as composed now: ATTN, HALT, RESTARTED, WOKE and MODE. -/
def State.statusByte (s : State) : Byte :=
  bitAt 7 s.port.attention.isPending ||| bitAt 6 (s.mode == .halted) |||
    bitAt 5 s.port.restarted ||| bitAt 4 s.port.woke ||| BitVec.ofNat 8 s.mode.code

/-! ### Outputs -/

/-- The conditions under which the valve of a point may be open (R20). -/
def State.valveAllowed (s : State) (p : PointId) : Bool :=
  s.mode == .run && s.scanner.estop.value == some false &&
    (s.role p != .delivery || s.scanner.brake.value == some true) &&
    s.metrology.status == .good

/-- The stage a point's state asks for (R20). -/
def PointState.asksFor : PointState → ValveStage
  | .priming | .slowing => .slow
  | .flowing => .full
  | _ => .closed

/-- The valve stage driven at a point (R20). -/
def State.drivenStage (s : State) (p : PointId) : ValveStage :=
  if s.valveAllowed p then PointState.asksFor (s.point p).state else .closed

/-- The outputs brought to what the state asks for: the valve stages (R20) and the attention output
(R180). Every command ends with this. -/
def drive (s : State) : State :=
  { s with
    points := #v[{ s.point 0 with valve := s.drivenStage 0 }, { s.point 1 with valve := s.drivenStage 1 },
      { s.point 2 with valve := s.drivenStage 2 }, { s.point 3 with valve := s.drivenStage 3 }]
    port := { s.port with attentionOut := s.port.attention.isPending } }

end Sys2Proof.Machine
end

