-- ==== Sys2Proof/Machine/Metering.lean ====
section
/-! DEFINITION. The metering arithmetic of Chapter 3: volumes, cost, targets, the quadrature decoder and
the interval end as far as the channel itself. -/

namespace Sys2Proof.Machine

/-! ### Volumes and cost -/

/-- floor of a quotient by a positive divisor, toward minus infinity. -/
def floorDiv (a b : Int) : Int := a / b

/-- ceil of a quotient by a positive divisor. -/
def ceilDiv (a b : Int) : Int := -((-a) / b)

/-- The gross volume G (R55). -/
def grossOf (c k : Int) : Int := floorDiv (10 * c) k

/-- The mean temperature Tm (R56). -/
def meanTempOf (w rpos : Int) : Int :=
  if rpos > 0 then floorDiv (2 * w + rpos) (2 * rpos) else 150

/-- The compensation factor F (R57). -/
def factorOf (compensated : Bool) (alpha tm : Int) : Int :=
  if compensated then 1000000 - alpha * (tm - 150) else 1000000

/-- The net volume N (R58). -/
def netOf (g f : Int) : Int := floorDiv (g * f + 500000) 1000000

/-- The cost Q in cents (R59). -/
def costOf (n price : Int) : Int := floorDiv (n * price + 5000) 10000

/-- The OVERRUN test (R63). -/
def overrunOf (n preset : Int) : Bool := decide (n * 100 > preset * 101)

/-- The hard limit on gross volume (R64). -/
def hardLimit : Int := 20000000

/-- The target raw count for a net goal (R60). -/
def targetOf (goal c r factor f k : Int) : Int :=
  let g := ceilDiv (goal * 1000000 - 500000) factor
  let d := ceilDiv (g * k) 10 - c
  if d ≤ 0 then r else r + ceilDiv d (10000 + f)

/-- The slow target: reached at once when the goal is 0 or below (R60). -/
def slowTargetOf (preset slowdown : Int) (c r factor f k : Int) : Int :=
  if preset - slowdown ≤ 0 then r else targetOf (preset - slowdown) c r factor f k

/-- The rate of an interval in counts per second (R52). -/
def rateOf (p : Int) (d : Nat) : Nat := if d = 0 then 0 else p.natAbs * 1000 / d

/-- The band of a rate (R52). -/
def bandOf (m : MeterParams) (r : Nat) : Fin 4 :=
  if r < m.t1 then 0 else if r < m.t2 then 1 else if r < m.t3 then 2 else 3

/-- A temperature clamped to −40.0 °C..+60.0 °C (R53). -/
def clampTemp (t : Int) : Int := max (-400) (min 600 t)

/-! ### The quadrature decoder (R47 to R49) -/

/-- The phase after an edge of one line (Table 3-2). -/
def togglePhase : Fin 4 → MeterLine → Fin 4
  | 0, .a => 1 | 1, .a => 0 | 2, .a => 3 | 3, .a => 2
  | 0, .b => 3 | 3, .b => 0 | 1, .b => 2 | 2, .b => 1

/-- The phase after both lines changed. -/
def oppositePhase (p : Fin 4) : Fin 4 := p + 2

/-- The count an edge makes: 1 from phase 3 to 0, −1 from phase 0 to 3, else 0 (R47). -/
def countOf (p q : Fin 4) : Int :=
  if p = 3 ∧ q = 0 then 1 else if p = 0 ∧ q = 3 then -1 else 0

/-- The alternation check of an edge (R49): the channel and whether the fault counter was taken from
the meter fault limit to one above it. -/
def judgeEdge (limit : Nat) (line : MeterLine) (m : Channel) : Channel × Bool :=
  if m.lastEdge = some line then
    ({ m with faults := satAdd 255 m.faults 1, cleanRun := 0, lastEdge := some line },
      m.faults == limit)
  else if m.cleanRun + 1 ≥ 4 then
    ({ m with faults := 0, cleanRun := 0, lastEdge := some line }, false)
  else ({ m with cleanRun := m.cleanRun + 1, lastEdge := some line }, false)

/-- The count of an edge made (R47): live raw count and interval count change together. -/
def Channel.count (m : Channel) (q : Fin 4) : Channel :=
  { m with live := m.live + countOf m.phase q, interval := m.interval + countOf m.phase q, phase := q }

/-- A double transition while COUNTING (R48). -/
def judgeDouble (limit : Nat) (m : Channel) : Channel × Bool :=
  ({ m with faults := satAdd 255 m.faults 1, cleanRun := 0, lastEdge := none,
            phase := oppositePhase m.phase }, m.faults == limit)

/-! ### The channel of a point -/

/-- The metering values of a point; those of a point that holds none are 0 (R45). -/
def State.mp (s : State) (p : PointId) : MeterParams :=
  (s.params.meters[p]).getD ⟨0, 0, 0, 0, Vector.replicate 4 0⟩

/-- α and the compensation setting of a product (R45). -/
def State.productParams (s : State) (product : Nat) : ProductParams :=
  match productOf product with
  | some q => s.params.products[q]
  | none => ⟨0, false⟩

/-- The compensation factor of a point's product at a mean temperature (R57). -/
def State.factorAt (s : State) (p : PointId) (tm : Int) : Int :=
  let q := s.productParams (s.productAt p)
  factorOf q.compensated q.alpha tm

/-- The stop and slow targets of a point computed from its channel with the factor of a band and a
mean temperature (R60, R61). -/
def State.targetsAt (s : State) (p : PointId) (m : Channel) : Channel :=
  let k : Int := (s.mp p).k
  let f := (s.mp p).f[m.lastBand]
  let factor := s.factorAt p m.tm
  let preset : Int := ((s.point p).ctx.preset.getD 0 : Nat)
  { m with
    stopTarget := some (targetOf preset m.c m.live factor f k)
    slowTarget := some (slowTargetOf preset (s.pp p).slowdown m.c m.live factor f k) }

/-- A channel entering COUNTING (R46), its opening targets aside. -/
def Channel.open (m : Channel) : Channel :=
  { m with
    counting := true, live := 0, interval := 0, elapsed := 0, c := 0, w := 0, rpos := 0,
    faults := 0, cleanRun := 0, uncompensated := false, backflow := false, overrun := false,
    lastEdge := none, lastBand := 0, lastTemp := 150, tm := 150, gross := 0, net := 0,
    intervalTimer := true }

/-- The value a temperature reading gives to an interval: an absent one counts as 150 (R53). -/
def tempValue : TempReading → Int
  | .tenths t => clampTemp t
  | .absent => 150

/-- Whether a reading is absent. -/
def TempReading.isAbsent : TempReading → Bool
  | .tenths _ => false
  | .absent => true

/-- Steps 1 to 5 of an interval end of length `d` with a temperature reading (R51 to R58). That the elapsed
intervals stop at 4,294,967,295, the top of the range of Table 3-1, is the model's choice (log entry 21). -/
def State.intervalFigures (s : State) (p : PointId) (d : Nat) (t : TempReading) (m : Channel) :
    Channel :=
  let mp := s.mp p
  let pi := m.interval
  let ti := tempValue t
  let band := bandOf mp (rateOf pi d)
  let c' := m.c + pi * (10000 + mp.f[band])
  let w' := m.w + max pi 0 * ti
  let rpos' := m.rpos + max pi 0
  let cc := max c' 0
  let tm := meanTempOf w' rpos'
  let g := grossOf cc mp.k
  { m with
    interval := 0, lastTemp := ti, lastBand := band, c := cc, w := w', rpos := rpos',
    backflow := m.backflow || decide (c' < 0),
    uncompensated := m.uncompensated || TempReading.isAbsent t,
    elapsed := satAdd 4294967295 m.elapsed 1, tm := tm, gross := g,
    net := netOf g (s.factorAt p tm) }

/-- The temperature condition after a sample, with the TEMP_ABSENT flag and the TEMP mark (R53). -/
def noteTemperature (p : PointId) (t : TempReading) (s : State) : State :=
  let m := s.meter p
  let s1 := s.setMeter p { m with tempGood := !(TempReading.isAbsent t) }
  match t with
  | .tenths _ => s1
  | .absent =>
    let s2 := s1.modFlags (fun f => { f with tempAbsent := f.tempAbsent.set p true })
    if m.tempGood then markFault p (fun x => { x with temp := true }) s2 else s2

/-- The checkpoint of a channel (R65). -/
def Channel.checkpoint (m : Channel) : Checkpoint :=
  ⟨m.live, m.c, m.w, m.rpos, m.elapsed, m.uncompensated, m.backflow⟩

/-- The meter inputs powered: each decoder takes the phase of its lines' levels (R46). -/
def powerMeters (s : State) : State :=
  allPoints.foldl (fun s p => s.setMeter p { s.meter p with phase := (s.meter p).pin }) s

end Sys2Proof.Machine
end

