-- ==== Sys2Proof/Machine/Journal.lean ====
section
/-! DEFINITION. The Journal Controller's operations (Chapter 8): the ring, space, records, checkpoints,
account totals, prices, record images. -/

namespace Sys2Proof.Machine

/-! ### Space (section 8.2) -/

/-- The number of slots of the ring. -/
def ringSize : Nat := 4096

/-- The slots kept back from OPEN records and VOIDs (section 8.2). -/
def floorSlots : Nat := 4

/-- The position after the newest record (R147, R149). -/
def Journal.writePosition (j : Journal) : Nat := (j.oldest + j.held) % ringSize

/-- The held slots together with the slots set aside (R147). -/
def State.occupied (s : State) : Nat := s.journal.held + s.journal.setAside

/-- The number of free slots (R147). -/
def State.freeSlots (s : State) : Nat := ringSize - s.occupied

/-- The free-slot test of a confirm and of a VOID: more than the floor (R25, R150, R156). -/
def State.aboveFloor (s : State) : Bool := decide (s.freeSlots > floorSlots)

/-- JOURNAL_LOW judged: on passage to holding, JOURNAL attention with the low detail (R151). -/
def judgeLow (s : State) : State :=
  let now := decide (s.freeSlots ≤ 64)
  let s1 := s.setJournal { s.journal with low := now }
  if now && !s.journal.low then
    raiseJournal (fun c => { c with low := true }) (s1.modFlags (fun f => { f with journalLow := true }))
  else s1

/-- JOURNAL_FULL judged: on passage to holding, JOURNAL attention with the full detail (R151). -/
def judgeFull (s : State) : State :=
  let now := decide (s.freeSlots ≤ 4)
  let s1 := s.setJournal { s.journal with full := now }
  if now && !s.journal.full then
    raiseJournal (fun c => { c with full := true })
      (s1.modFlags (fun f => { f with journalFull := true }))
  else s1

/-- Both journal conditions judged (R151). -/
def judgeJournal (s : State) : State := judgeFull (judgeLow s)

/-- One slot set aside for a confirm (R150). -/
def setSlotAside (s : State) : State :=
  judgeJournal (s.setJournal { s.journal with setAside := s.journal.setAside + 1 })

/-- A slot set aside given back (R150). -/
def giveSlotBack (s : State) : State :=
  judgeJournal (s.setJournal { s.journal with setAside := s.journal.setAside - 1 })

/-! ### Records (R148, R152 to R155) -/

/-- The kind of a record. -/
def RecordBody.kind : RecordBody → RecordKind
  | .fill false _ => .delivery
  | .fill true _ => .receipt
  | .void _ => .void
  | .shiftClose _ _ _ _ => .shiftClose
  | .stocktake _ _ => .stocktake
  | .calibration _ _ _ => .calibration

/-- A record as it is appended: the next journal seq, the own station ID, the epoch of this start, the
shift current now or none, the site time now or none (Tables 8-2 and 8-3). -/
def State.newRecord (s : State) (closed : Bool) (body : RecordBody) : Record where
  seq := s.journal.nextSeq
  closed := closed
  voided := false
  exported := false
  station := if s.params.found then some s.params.stationId else none
  epoch := s.metrology.epoch
  shift := s.peers.shift
  time := s.peers.siteTime
  body := body

/-- The held slot that an append makes (R148). -/
def State.appended (s : State) (closed : Bool) (body : RecordBody) : Slot :=
  ⟨true, s.newRecord closed body⟩

/-- The write that puts a record into the ring at the write position (R148). -/
def State.appendWrite (s : State) (closed : Bool) (body : RecordBody) : RmWrite :=
  .slot s.journal.writePosition (s.appended closed body)

/-- A record appended, the journal conditions not yet judged (R148). -/
def appendRecord (closed : Bool) (body : RecordBody) (s : State) : State :=
  (s.setRm (s.rm.write (s.appendWrite closed body))).setJournal
    { s.journal with held := s.journal.held + 1, nextSeq := s.journal.nextSeq + 1 }

/-- A record lost for want of a slot (R150). -/
def loseRecord (s : State) : State :=
  raiseJournal (fun c => { c with lost := true })
    (s.setJournal { s.journal with lost := count16 s.journal.lost })

/-- A SHIFT_CLOSE or CALIBRATION record appended, or lost when no slot is free (R150). -/
def appendOrLose (body : RecordBody) (s : State) : State :=
  if s.freeSlots = 0 then loseRecord s else judgeJournal (appendRecord true body s)

/-- The OPEN record written into the slot set aside (R150, R152): the occupied count stands. -/
def appendOpen (body : RecordBody) (s : State) : State :=
  let s1 := appendRecord false body s
  judgeJournal (s1.setJournal { s1.journal with setAside := s1.journal.setAside - 1 })

/-- The record of a slot changed in place. -/
def changeRecord (slots : List (Nat × Slot)) (k : Nat) (f : Record → Record) : List (Nat × Slot) :=
  match slotAt slots k with
  | some x => setSlot slots k { x with record := f x.record }
  | none => slots

/-- The record of a slot of the ring changed in place. -/
def updateSlot (k : Nat) (f : Record → Record) (s : State) : State :=
  s.setRm { s.rm with slots := changeRecord s.rm.slots k f }

/-- The records of the ring with their positions, oldest first (section 8.1). -/
def ringFrom (slots : List (Nat × Slot)) : Nat → Nat → List (Nat × Record)
  | _, 0 => []
  | k, n + 1 =>
    match slotAt slots k with
    | some x => (k, x.record) :: ringFrom slots ((k + 1) % ringSize) n
    | none => ringFrom slots ((k + 1) % ringSize) n

/-- The records of the ring with their positions, oldest first. -/
def State.ring (s : State) : List (Nat × Record) :=
  ringFrom s.rm.slots s.journal.oldest s.journal.held

/-- A record changed by a function of its fill fields; other kinds stand. -/
def Record.mapFill (f : FillRecord → FillRecord) (r : Record) : Record :=
  match r.body with
  | .fill receipt x => { r with body := .fill receipt (f x) }
  | _ => r

/-! ### Checkpoints (R153) -/

/-- Whether area B holds the checkpoint of the slot: its check value holds, and that of A fails or
carries a lower count of elapsed intervals. With equal counts, as at the opening, A counts as the more
recent, so that the first checkpoint after it is written into B: the model's choice (log entry 31). -/
def FillRecord.recentB (f : FillRecord) : Bool :=
  f.areaB.ok && (!f.areaA.ok || decide (f.areaA.checkpoint.elapsed < f.areaB.checkpoint.elapsed))

/-- The checkpoint of a slot (R153). -/
def FillRecord.checkpoint (f : FillRecord) : Checkpoint :=
  if f.recentB then f.areaB.checkpoint
  else if f.areaA.ok then f.areaA.checkpoint
  else Checkpoint.zero

/-- A checkpoint written into the area that does not hold the one most recently written (R153). -/
def FillRecord.writeCheckpoint (c : Checkpoint) (f : FillRecord) : FillRecord :=
  if f.recentB then { f with areaA := ⟨true, c⟩ } else { f with areaB := ⟨true, c⟩ }

/-- The write of a checkpoint cut short: the area fails its check value (R153). -/
def FillRecord.tearCheckpoint (f : FillRecord) : FillRecord :=
  if f.recentB then { f with areaA := { f.areaA with ok := false } }
  else { f with areaB := { f.areaB with ok := false } }

/-- A checkpoint handed over: its write begins, or it waits, replacing another that waits (R65). -/
def handCheckpoint (p : PointId) (c : Checkpoint) (s : State) : State :=
  match s.journal.writing[p] with
  | none => s.setJournal { s.journal with writing := s.journal.writing.set p (some c) }
  | some _ => s.setJournal { s.journal with waiting := s.journal.waiting.set p (some c) }

/-- A checkpoint write finished; one that waits is written next (R153, R65). -/
def finishCheckpoint (p : PointId) (s : State) : State :=
  match s.journal.writing[p] with
  | none => s
  | some c =>
    let s1 := match (s.point p).ctx.slot with
      | some k => updateSlot k (Record.mapFill (FillRecord.writeCheckpoint c)) s
      | none => s
    s1.setJournal { s1.journal with
      writing := s1.journal.writing.set p s.journal.waiting[p]
      waiting := s1.journal.waiting.set p none }

/-- No checkpoint of a point is being written or waits. -/
def dropCheckpoints (p : PointId) (s : State) : State :=
  s.setJournal { s.journal with
    writing := s.journal.writing.set p none, waiting := s.journal.waiting.set p none }

/-! ### Account totals and shift figures (R160, R161) -/

/-- A delivery added to the totals of an account. -/
def addToAccount (account : Nat) (net cost count : Int) (j : Journal) : Journal :=
  match accountOf account with
  | some a =>
    let x := j.accounts[a]
    { j with accounts := j.accounts.set a ⟨x.net + net, x.cost + cost, x.count + count⟩ }
  | none => j

/-- A delivery added to the shift figures: its net to that of its product, 1 to the count. -/
def addToFigures (product : Nat) (net : Int) (j : Journal) : Journal :=
  let f := j.figures
  { j with figures :=
      match productOf product with
      | some q => { f with nets := f.nets.set q (f.nets[q] + net), deliveries := f.deliveries + 1 }
      | none => { f with deliveries := f.deliveries + 1 } }

/-- Every account total and shift figure set to 0 (R160). -/
def zeroTotals (j : Journal) : Journal :=
  { j with accounts := Vector.replicate 32 ⟨0, 0, 0⟩, figures := .zero }

/-- What one record of the ring adds to the totals and figures of a shift (R161). -/
def rebuildOne (shift : Nat) (r : Record) (j : Journal) : Journal :=
  if r.closed && r.shift == some shift then
    match r.body with
    | .fill false f =>
      let j1 := addToFigures f.product f.net j
      if r.voided then j1
      else addToAccount (f.account.getD 0) f.net (f.cost.getD 0) 1 j1
    | .void _ => { j with figures := { j.figures with voids := j.figures.voids + 1 } }
    | _ => j
  else j

/-- The totals and figures rebuilt from the ring at START (R161). -/
def rebuildTotals (shift : Nat) (s : State) : State :=
  s.setJournal ((s.ring.map Prod.snd).foldl (fun j r => rebuildOne shift r j) (zeroTotals s.journal))

/-! ### Baselines (R135) -/

/-- The compartment whose baseline accounts for a record, with what the record makes of a book
figure. -/
def Record.bookEffect (r : Record) : Option (CompId × (Int → Int)) :=
  match r.body with
  | .fill false f => if r.closed then some (f.compartment, fun x => x - f.net) else none
  | .fill true f => if r.closed then some (f.compartment, fun x => x + f.net) else none
  | .stocktake c v => some (c, fun _ => (v : Int))
  | _ => none

/-- The baseline of a compartment after a record is folded into it (R135). A compartment that has no
baseline in record memory gets none by a fold: the model's choice (log entry 20). -/
def foldInto (r : Record) (bs : Vector (Option Baseline) 3) : Option (CompId × Baseline) :=
  match r.bookEffect with
  | some (c, f) =>
    match bs[c] with
    | some b => if r.seq > b.seq then some (c, ⟨f b.value, r.seq⟩) else none
    | none => none
  | none => none

/-- The book figure of a compartment over the ring from a baseline (R135). -/
def bookOver (c : CompId) (b : Baseline) (rs : List Record) : Int :=
  rs.foldl (fun x r =>
    match r.bookEffect with
    | some (k, f) => if k = c ∧ r.seq > b.seq then f x else x
    | none => x) b.value

/-! ### Record images (R191, Tables 11-7 and 11-8) -/

/-- An optional number in `w` bytes, all one bits when none. -/
def beOpt (w : Nat) : Option Nat → List Byte
  | some n => be w n
  | none => allOnes w

/-- The checkpoint fields of a record image. -/
def Checkpoint.image (c : Checkpoint) : List Byte :=
  be 4 c.r ++ be 8 c.c ++ be 8 c.w ++ be 4 c.rpos ++ be 4 c.elapsed ++
    [bitAt 0 c.uncompensated ||| bitAt 1 c.backflow]

/-- The kind-specific part of a fill's record image: while the record is OPEN, what its close writes
is zero, MANUAL aside. The cost of an OPEN receipt is zero too, although R191 also gives FFFFFFFFh for the
cost of a RECEIPT: the model's choice (log entry 19). -/
def FillRecord.image (receipt closed : Bool) (f : FillRecord) : List Byte :=
  let z (b : Bool) : Bool := closed && b
  (if closed then beOpt 4 f.timeClosed else be 4 0) ++
  be 1 (f.point.val + 1) ++ be 1 (f.compartment.val + 1) ++ be 1 f.product ++
  be 2 (f.fleet.getD 0 : Nat) ++ be 1 (f.account.getD 0 : Nat) ++ be 2 f.operator ++
  [bitAt 0 f.manual ||| bitAt 1 (z f.uncompensated) ||| bitAt 2 (z f.backflow) |||
    bitAt 3 (z f.overrun) ||| bitAt 4 (z f.disputed)] ++
  be 1 (if closed then (f.endReason.map EndCause.code).getD 0 else 0 : Nat) ++
  be 4 f.preset ++ (if receipt then allOnes 4 else beOpt 4 f.price) ++
  (if closed then be 4 f.gross ++ be 4 f.net ++ be 2 f.tm else be 4 0 ++ be 4 0 ++ be 2 0) ++
  (if closed then (if receipt then allOnes 4 else be 4 (f.cost.getD 0)) else be 4 0) ++
  be 4 f.calibrationCount ++ f.checkpoint.image

/-- The image of a record (Tables 11-7 and 11-8). -/
def Record.image (r : Record) : List Byte :=
  be 4 r.seq ++ be 1 r.body.kind.code ++ [flagByte r.closed] ++
  [bitAt 0 r.voided ||| bitAt 1 r.exported] ++ beOpt 1 r.station ++ be 1 r.epoch ++
  beOpt 4 r.shift ++ beOpt 4 r.time ++
  match r.body with
  | .fill receipt f => f.image receipt r.closed
  | .void q => be 4 q
  | .shiftClose h nets d v =>
    be 4 h ++ nets.toList.flatMap (be 8) ++ be 2 d ++ be 2 v
  | .stocktake c v => be 1 (c.val + 1) ++ be 4 v
  | .calibration old new n => be 4 old.toNat ++ be 4 new.toNat ++ be 4 n

/-- The journal summary (R164). -/
def State.journalSummary (s : State) : List Item :=
  let rs := s.ring
  [.num 4 s.occupied, .num 4 s.freeSlots, .num 4 s.journal.setAside,
   Item.opt 4 (rs.head?.map (fun x => x.2.seq)), Item.opt 4 (rs.getLast?.map (fun x => x.2.seq)),
   .num 4 s.journal.nextSeq, .num 4 s.journal.cursor, .num 4 s.journal.lost,
   Item.flag s.journal.low, Item.flag s.journal.full]

end Sys2Proof.Machine
end

