-- ==== Sys2Proof/Machine/Figures.lean ====
section
/-! DEFINITION. The figures blocks compute for one another without changing anything: strapped volume,
available stock, space, fractions (Chapter 7), gap deduction, remaining allowance and the preset
(Chapter 4), the clock shift (R118) and the open fill's remaining preset (R89). -/

namespace Sys2Proof.Machine

/-! ### Compartment figures -/

/-- The strapped volume of a level between or beyond the points of a strapping table (R131). -/
def strapped : List (Nat × Nat) → Nat → Nat
  | [], _ => 0
  | [(_, v)], _ => v
  | (l0, v0) :: (l1, v1) :: rest, l =>
    if l ≤ l0 then v0
    else if l < l1 then v0 + (l - l0) * (v1 - v0) / (l1 - l0)
    else strapped ((l1, v1) :: rest) l

/-- The fraction of a compartment: book stock by capacity, truncated, within 0..1,000 (R140). -/
def fractionOf (book : Int) (capacity : Nat) : Nat := min 1000 (book.toNat / capacity)

/-- The present compartments with their parameters. -/
def State.presentComps (s : State) : List (CompId × CompParams) :=
  allComps.filterMap (fun c => (s.cp c).map (fun k => (c, k)))

/-- The fraction of a present compartment. -/
def State.fraction (s : State) (x : CompId × CompParams) : Nat :=
  fractionOf (s.comp x.1).book x.2.capacity

/-- The own fraction: the least among the present compartments (R140). -/
def State.ownFractionNow (s : State) : Nat :=
  (s.presentComps.map s.fraction).foldl min 1000

/-- The outstanding volume of an open delivery: preset less net as of the last interval end, floored
at 0 (R136). -/
def State.outstanding (s : State) (o : OpenPreset) : Int :=
  max 0 ((o.preset : Int) - (s.meter o.point).net)

/-- The sum of the outstanding volumes of the open deliveries from a compartment. -/
def State.outstandingOn (s : State) (c : CompId) : Int :=
  ((s.allowance.openPresets.filter (fun o => s.compartmentOf o.point == c)).map s.outstanding).foldl
    (· + ·) 0

/-- The figure available stock starts from: book stock, or the lesser of book stock and probe volume
while the probe is valid (R136). -/
def State.stockBasis (s : State) (c : CompId) : Int :=
  match (s.comp c).probe, (s.comp c).volume with
  | .valid, some v => min (s.comp c).book v
  | _, _ => (s.comp c).book

/-- The available stock of a compartment (R136). -/
def State.available (s : State) (c : CompId) : Nat :=
  match s.cp c with
  | some k => (s.stockBasis c - (k.reserve * 1000 : Nat) - s.outstandingOn c).toNat
  | none => 0

/-- The space of a compartment (R137). -/
def State.space (s : State) (c : CompId) : Nat :=
  match s.cp c with
  | some k => (((k.capacity * (1000 - k.ullage) : Nat) : Int) - (s.comp c).book).toNat
  | none => 0

/-! ### The consumption view -/

/-- The own shift total of a machine (R68). -/
def Allowance.ownTotal (a : Allowance) (fleet : Nat) : Nat :=
  match a.own.find? (fun x => x.1 == fleet) with
  | some x => x.2
  | none => 0

/-- A volume added to the own total of a machine; the list stays ascending and holds no 0. -/
def addOwn (fleet n : Nat) : List (Nat × Nat) → List (Nat × Nat)
  | [] => if n = 0 then [] else [(fleet, n)]
  | (f, v) :: rest =>
    if fleet < f then (if n = 0 then (f, v) :: rest else (fleet, n) :: (f, v) :: rest)
    else if fleet = f then (f, satAdd 2147483647 v n) :: rest
    else (f, v) :: addOwn fleet n rest

/-- An own shift total raised by the net volume of a delivery (R68). -/
def Allowance.addDelivered (a : Allowance) (fleet : Nat) (net : Int) : Allowance :=
  { a with own := addOwn fleet (min 2147483647 net.toNat) a.own }

/-- The sum of g over all peers (R80). -/
def State.gapSum (s : State) : Nat := sumBy Peer.g s.peers.table.toList

/-- The gap deduction (R80). -/
def State.gapDeduction (s : State) : Nat :=
  if s.peers.warmUp then s.params.gapCap
  else min (s.params.gapReserve * s.gapSum) s.params.gapCap

/-- The sum of a machine's contributions (R81). -/
def State.contributed (s : State) (fleet : Nat) : Nat :=
  sumBy Contribution.value (s.allowance.contributions.filter (fun c => c.fleet == fleet))

/-- The sum of a machine's holds (R81). -/
def State.heldFor (s : State) (fleet : Nat) : Nat :=
  sumBy Hold.volume (s.allowance.holds.filter (fun h => h.fleet == fleet))

/-- The sum of the presets of a machine's own open fills (R81). -/
def State.openFor (s : State) (fleet : Nat) : Nat :=
  sumBy OpenPreset.preset (s.allowance.openPresets.filter (fun o => o.fleet == fleet))

/-- The remaining allowance of a machine whose shift allowance is `a` (R81): truncated subtraction is
the floor at 0. -/
def State.remaining (s : State) (fleet a : Nat) : Nat :=
  a - (s.allowance.ownTotal fleet + s.contributed fleet + s.heldFor fleet + s.openFor fleet +
    s.gapDeduction)

/-- The most a fill can be preset to (R82). -/
def presetCap : Nat := 20000000

/-- The least of a volume and an optional term. -/
def minOpt (n : Nat) : Option Nat → Nat
  | some k => min n k
  | none => n

/-- The remaining allowance term of a preset, when the machine has a shift allowance. -/
def State.allowanceTerm (s : State) (m : RosterRecord) : Option Nat :=
  m.allowance.map (s.remaining m.fleet)

/-- The least of the terms of a preset (R82). -/
def State.presetOf (s : State) (p : PointId) (m : RosterRecord) (request : Nat) : Nat :=
  min (minOpt (minOpt (min request presetCap) (s.allowanceTerm m)) m.tank)
    (s.available (s.compartmentOf p))

/-- The reason of a preset refused (R83). -/
def State.presetRefusal (s : State) (p : PointId) (m : RosterRecord) : RefusalReason :=
  let low (t : Option Nat) : Bool :=
    match t with
    | some n => decide (n < (s.pp p).minFill)
    | none => false
  if low (s.allowanceTerm m) then .noAllowance
  else if low m.tank then .tankCapacity
  else .noStock

/-! ### Shifts (R118) -/

/-- The position of the last start time at or below a minute, `none` when the minute is below the
first. -/
def shiftIndex (starts : List Nat) (minute : Nat) : Option Nat :=
  match (starts.filter (fun t => t ≤ minute)).length with
  | 0 => none
  | n + 1 => some n

/-- The clock shift of a site time (R118). -/
def clockShift (starts : List Nat) (t : Nat) : Nat :=
  let n := starts.length
  let day := t / 86400
  match shiftIndex starts (t % 86400 / 60) with
  | some i => day * n + i
  | none => if day = 0 then 0 else (day - 1) * n + (n - 1)

end Sys2Proof.Machine
end

