-- ==== Sys2Proof/Machine/Link.lean ====
section
/-! DEFINITION. The Link Controller's transmit half with the tally generator that feeds it (sections
5.3 to 5.5 and 6.7), the frames as bytes (section 11.1) and the receive half (section 5.6). -/

namespace Sys2Proof.Machine

/-! ### Frames (section 11.1) -/

/-- The kind code of a bulletin (section 11.1). -/
def BulletinBody.code : BulletinBody → Nat
  | .openFill .. => 1
  | .closeFill .. => 2
  | .tally .. => 3
  | .bayAsk _ => 4
  | .bayDone => 5

/-- The bytes of a bulletin body (Table 11-2); the flags byte is 00h (R91). -/
def BulletinBody.encode : BulletinBody → List Byte
  | .openFill f h l p => be 2 f ++ be 4 h ++ be 2 l ++ be 1 p
  | .closeFill f c n p => be 2 f ++ be 4 c ++ be 4 n ++ be 1 p
  | .tally r i c fr es =>
    be 1 r ++ be 1 i ++ be 1 c ++ be 2 (fr.getD 0xFFFF : Nat) ++ be 1 0 ++
      es.flatMap (fun e => be 2 e.1 ++ be 4 e.2)
  | .bayAsk f => be 2 f
  | .bayDone => []

/-- The header and body of a bulletin (Table 11-1). -/
def Bulletin.encode (b : Bulletin) : List Byte :=
  be 2 b.siteCode ++ be 1 b.station ++ be 1 (b.epoch * 16 + b.body.code : Nat) ++ be 1 b.seq ++
    be 4 b.shift ++ be 1 b.body.encode.length ++ b.body.encode

/-- The frame of a bulletin on the air (section 11.1, R189). -/
def Bulletin.air (b : Bulletin) : List Byte :=
  [0xAA, 0xAA, 0x7E] ++ b.encode ++ be 2 (crc16 b.encode).toNat

/-! ### The tally generator (section 6.7) -/

/-- The fleet numbers of the roster machines whose own shift total is above 0, ascending (R123). -/
def State.tallyList (s : State) : List Nat := s.allowance.own.map Prod.fst

/-- The part count of a round of `n` machines (R123). -/
def partCount (n : Nat) : Nat := if n = 0 then 1 else (n + 38) / 39

/-- The body of part `k` of a round, with the totals and the restock fraction as they stand now (R91,
R123). -/
def State.tallyBody (s : State) (r : Round) (k : Nat) : BulletinBody :=
  .tally r.number k r.parts (if s.stock.active then some s.ownFractionNow else none)
    (((r.list.drop (39 * k)).take 39).map (fun f => (f, s.allowance.ownTotal f)))

/-- A round started: its number, list and part count fixed, the pending count set to 0, a round in
progress ended (R122, R123, R125). Its first part is queued by the task this answers with. -/
def beginRound (urgent : Bool) (s : State) : State :=
  let u := s.peers
  let r : Round := ⟨u.nextRound, s.tallyList, partCount s.tallyList.length, 1, urgent⟩
  s.setPeers { u with pendingCount := 0, nextRound := (u.nextRound + 1) % 256, round := some r }

/-- A normal round is due: a tally period has ended, no round is in progress and the queue is empty
(R122). -/
def State.roundDue (s : State) : Bool :=
  s.peers.tallyTimer && decide (1 ≤ s.peers.pendingCount) && s.peers.round.isNone &&
    s.link.queue.isEmpty

/-! ### The transmit queue (sections 5.3 and 5.4) -/

/-- Carrier sensing is on (R88, R98). -/
def State.sensing (s : State) : Bool := s.link.rx != .off && s.link.tx != .sending

/-- What remains to be done at the link within one step: an attempt to begin, a bulletin's leaving to
report, a bulletin to queue. -/
inductive LinkTask where
  | begin
  | left (b : Bulletin)
  | send (body : BulletinBody) (urgent : Bool)
deriving DecidableEq, Repr

/-- The most bulletins of the transmit queue (R93). -/
def queueSize : Nat := 8

/-- The backoff exponent of a bulletin (section 5.4, R99). -/
def Queued.exponent (q : Queued) : Nat := if q.urgent then 0 else min q.busy 5

/-- The head bulletin makes a busy finding (R96), and is dropped at its eighth (R97). -/
def busyFinding (s : State) : State × List LinkTask :=
  let l := s.link
  match l.queue with
  | [] => (s, [])
  | q :: rest =>
    let k := { l.counters with busy := count32 l.counters.busy }
    if q.busy + 1 ≥ 8 then
      (s.setLink { l with queue := rest, tx := .idle,
                          counters := { k with dropped := count32 k.dropped } },
        [.begin, .left q.bulletin])
    else
      (s.setLink { l with queue := { q with busy := q.busy + 1 } :: rest, tx := .defer,
                          counters := k }, [])

/-- An attempt begins for the head when none is in progress: in QUIET, or with a busy finding at once
when the carrier is present (R95). -/
def beginAttempt (s : State) : State × List LinkTask :=
  if s.link.tx = .idle ∧ ¬ s.link.queue.isEmpty then
    let s1 := s.setLink { s.link with tx := .quiet }
    if s.link.carrier then busyFinding s1 else (s1, [])
  else (s, [])

/-- Whether a queued bulletin is a TALLY part. -/
def Queued.isTally (q : Queued) : Bool :=
  match q.bulletin.body with
  | .tally .. => true
  | _ => false

/-- The bulletins that may be displaced: those not in SENDING (R94). -/
def Link.displaceable (l : Link) : List Queued :=
  if l.tx = .sending then l.queue.tail else l.queue

/-- The oldest of some bulletins. -/
def oldestOf : List Queued → Option Queued
  | [] => none
  | q :: qs =>
    match oldestOf qs with
    | some r => if q.stamp ≤ r.stamp then some q else some r
    | none => some q

/-- The bulletin a full queue displaces: the oldest TALLY part not in SENDING, or else the oldest
bulletin not in SENDING (R94). -/
def Link.victim (l : Link) : Option Queued :=
  match oldestOf (l.displaceable.filter Queued.isTally) with
  | some q => some q
  | none => oldestOf l.displaceable

/-- Room made in a full queue (R94); an attempt for a head so removed ends without a busy finding. -/
def makeRoom (l : Link) : Link × List LinkTask :=
  if l.queue.length < queueSize then (l, [])
  else match l.victim with
    | none => (l, [])
    | some v =>
      let wasHead : Bool := l.queue.head? == some v
      ({ l with
          queue := l.queue.erase v
          tx := if wasHead && l.tx != .off then .idle else l.tx
          counters := { l.counters with displaced := count32 l.counters.displaced } },
        [.left v.bulletin])

/-- The stamp of the next bulletin: above those present. -/
def Link.nextStamp (l : Link) : Nat := l.queue.foldl (fun n q => max n (q.stamp + 1)) 0

/-- A bulletin placed: at the tail, or an urgent part at the head, behind one in SENDING (R93, R99). -/
def place (q : Queued) (l : Link) : Link :=
  if q.urgent then
    match l.tx, l.queue with
    | .sending, h :: rest => { l with queue := h :: q :: rest }
    | .off, qs => { l with queue := q :: qs }
    | _, qs => { l with queue := q :: qs, tx := .idle }
  else { l with queue := l.queue ++ [q] }

/-- The bulletin a body makes now: the complete header of R92. -/
def State.bulletinOf (s : State) (body : BulletinBody) : Bulletin where
  siteCode := s.params.siteCode
  station := s.params.stationId
  epoch := s.metrology.epoch
  seq := s.link.nextSeq
  shift := s.shiftNo
  body := body

/-- A bulletin queued (R92 to R94, R99). -/
def sendTask (body : BulletinBody) (urgent : Bool) (s : State) : State × List LinkTask :=
  let l := s.link
  let b := s.bulletinOf body
  let l1 := { l with nextSeq := (l.nextSeq + 1) % 256,
                     counters := { l.counters with queued := count32 l.counters.queued } }
  let (l2, report) := makeRoom l1
  (s.setLink (place ⟨b, 0, urgent, l.nextStamp⟩ l2), .begin :: report)

/-- The leaving of a bulletin reported to the tally generator: the next part of its round is queued, or
the round ends (R93, R124, R125). -/
def leftTask (b : Bulletin) (s : State) : State × List LinkTask :=
  match b.body, s.peers.round with
  | .tally n i _ _ _, some r =>
    if r.number = n ∧ r.next = i + 1 then
      if r.next < r.parts then
        (s.setPeers { s.peers with round := some { r with next := r.next + 1 } },
          [.send (s.tallyBody r r.next) r.urgent])
      else (s.setPeers { s.peers with round := none }, [])
    else (s, [])
  | _, _ => (s, [])

/-- One task carried out. -/
def linkTask : LinkTask → State → State × List LinkTask
  | .begin, s => beginAttempt s
  | .left b, s => leftTask b s
  | .send body urgent, s => sendTask body urgent s

/-- The tasks of the link carried out in order, with those they bring, and a normal round started when
one is due at the end. The bound is never met: see `linkFuel`. -/
def runLink : Nat → List LinkTask → State → State
  | 0, _, s => s
  | n + 1, [], s =>
    if s.roundDue then
      let s1 := beginRound false s
      match s1.peers.round with
      | some r => runLink n [.send (s1.tallyBody r 0) false] s1
      | none => s1
    else s
  | n + 1, t :: ts, s =>
    let (s1, more) := linkTask t s
    runLink n (more ++ ts) s1

/-- A bound on the tasks of one step (log entry 9): a step drops or displaces at most the bulletins of
the queue, each leaving queues at most one part, and a round has at most 14 parts. -/
def linkFuel : Nat := 200

/-- The link's work of a step begun with some tasks. -/
def linkWork (ts : List LinkTask) (s : State) : State := runLink linkFuel ts s

/-- A bulletin that is not urgent queued (R92). -/
def queueBulletin (body : BulletinBody) (s : State) : State := linkWork [.send body false] s

/-- A round of either kind started (R122). -/
def startRound (urgent : Bool) (s : State) : State :=
  let s1 := beginRound urgent s
  match s1.peers.round with
  | some r => linkWork [.send (s1.tallyBody r 0) urgent] s1
  | none => s1

/-! ### The medium -/

/-- The transmitter enters SENDING: the frame goes on the air, the receiver takes no characters and
carrier sensing stops (R98, R101). Through SENDING the receiver is held in HUNT, the state to which it
returns at the end: the model's choice (log entry 30). -/
def enterSending (s : State) : State :=
  let l := s.link
  match l.queue with
  | [] => s
  | q :: _ =>
    s.setLink { l with tx := .sending, air := q.bulletin.air, frame := [], lastAA := false,
                       jamTimer := false, rx := if l.rx = .off then .off else .hunt }

/-- The quiet wait complete: the backoff is drawn; with 0 slots the attempt sends at once (R95, R96). So
when the carrier appears at the same moment and is taken after the completion, a backoff of 0 slots is
over and the attempt makes no busy finding: the model's choice (log entry 29). -/
def quietComplete (s : State) : State :=
  match s.link.tx, s.link.queue with
  | .quiet, q :: _ =>
    if q.exponent = 0 then enterSending (s.setLink { s.link with draw := 0 })
    else
      let k := Config.backoffDraw s.free % 2 ^ q.exponent
      let s1 := (s.setLink { s.link with draw := k, tx := .backoff }).bumpFree
      if k = 0 then enterSending s1 else s1
  | _, _ => s

/-- The backoff ended with the carrier absent (R96). -/
def backoffComplete (s : State) : State :=
  if s.link.tx = .backoff then enterSending s else s

/-- The transmission ended: the bulletin leaves as transmitted, the receiver returns to HUNT, carrier
sensing resumes, and the next attempt begins (R98). -/
def transmissionComplete (s : State) : State :=
  let l := s.link
  match l.tx, l.queue with
  | .sending, q :: rest =>
    linkWork [.left q.bulletin, .begin]
      (s.setLink { l with queue := rest, tx := .idle, jamTimer := l.carrier,
                          counters := { l.counters with transmitted := count32 l.counters.transmitted } })
  | _, _ => s

/-- The carrier appears (R95, R96, R100). -/
def carrierOn (s : State) : State :=
  if s.link.carrier then s
  else
    let sensed := s.sensing
    let s1 := s.setLink { s.link with carrier := true, jamTimer := sensed }
    match s.link.tx with
    | .quiet | .backoff =>
      let (s2, ts) := busyFinding s1
      linkWork ts s2
    | _ => s1

/-- The carrier drops: a jam ends, and a bulletin in DEFER begins its next attempt (R95, R100). -/
def carrierOff (s : State) : State :=
  let l := s.link
  if ¬ l.carrier then s
  else if l.tx = .defer then
    linkWork [.begin] (s.setLink { l with carrier := false, jamTimer := false, jammed := false,
                                          tx := .idle })
  else if s.sensing then
    s.setLink { l with carrier := false, jamTimer := false, jammed := false }
  else s.setLink { l with carrier := false }

/-- The carrier has been present for 2 s: JAMMED holds (R100). -/
def jamDetected (s : State) : State :=
  let l := s.link
  if l.jamTimer && !l.jammed then
    raiseLink (fun c => { c with jammed := true })
      ((s.setLink { l with jammed := true, counters := { l.counters with jam := count32 l.counters.jam } }).modFlags
        (fun f => { f with jammed := true }))
  else s

/-! ### The receiver (R101, R102) -/

/-- The most slots of the receive ring (R102). -/
def ringSlots : Nat := 8

/-- A frame ended with a status: it takes the next slot of the ring, or is dropped at a full one
(R101, R102). The receiver returns to HUNT. -/
def endFrame (status : FrameStatus) (bytes : List Byte) (s : State) : State :=
  let l := { s.link with rx := .hunt, frame := [], lastAA := false }
  if l.ring.length ≥ ringSlots then
    raiseLink (fun c => { c with overrun := true })
      (s.setLink { l with counters := { l.counters with overruns := count32 l.counters.overruns } })
  else
    s.setLink { l with ring := l.ring ++ [⟨status, if status = .good then bytes else []⟩] }

/-- The body length that a header carries (Table 11-1). -/
def bodyLength (frame : List Byte) : Nat := (frame.getD 9 0).toNat

/-- A character taken into the frame in assembly (R101, R189). -/
def frameCharacter (c : Byte) (s : State) : State :=
  let f := s.link.frame ++ [c]
  let s1 := s.setLink { s.link with frame := f }
  if f.length < 10 then s1
  else if f.length = 10 ∧ bodyLength f > 240 then endFrame .lengthError [] s1
  else if f.length < 12 + bodyLength f then s1
  else
    let n := 10 + bodyLength f
    if ofBe (f.drop n) = (crc16 (f.take n)).toNat then endFrame .good (f.take n) s1
    else endFrame .crcError [] s1

/-- A character from the modem (R101): none is taken while the receiver is off or the transmitter is
SENDING, and one without its stop bit is discarded. -/
def linkCharacter (c : Byte) (stopBit : Bool) (s : State) : State :=
  if ¬ stopBit ∨ s.link.tx = .sending then s
  else match s.link.rx with
    | .off => s
    | .hunt =>
      if s.link.lastAA && c == 0x7E then
        s.setLink { s.link with rx := .frame, frame := [], lastAA := false }
      else s.setLink { s.link with lastAA := c == 0xAA }
    | .frame => frameCharacter c s

/-- The gap time has passed in FRAME without a character (R101). -/
def gapExpired (s : State) : State :=
  if s.link.rx = .frame ∧ s.link.tx ≠ .sending then endFrame .gapError [] s else s

/-! ### Reading a frame (R104, Table 11-2) -/

/-- The number that `w` bytes at an offset hold. -/
def field (b : List Byte) (off w : Nat) : Nat := ofBe ((b.drop off).take w)

/-- The entries of a TALLY body from its offset 6 on. -/
def tallyEntries (b : List Byte) : Nat → Nat → List (Nat × Nat)
  | _, 0 => []
  | off, n + 1 => (field b off 2, field b (off + 2) 4) :: tallyEntries b (off + 6) n

/-- The body of a frame, `none` when it fails the format check of R104. -/
def parseBody (kind : Nat) (b : List Byte) : Option BulletinBody :=
  match kind with
  | 1 => if b.length = 9 then some (.openFill (field b 0 2) (field b 2 4) (field b 6 2) (field b 8 1))
         else none
  | 2 => if b.length = 11 then some (.closeFill (field b 0 2) (field b 2 4) (field b 6 4) (field b 10 1))
         else none
  | 3 =>
    let n := (b.length - 6) / 6
    let count := field b 2 1
    if b.length ≥ 6 ∧ b.length = 6 + 6 * n ∧ n ≤ 39 ∧ 1 ≤ count ∧ count ≤ 14 ∧ field b 1 1 < count then
      some (.tally (field b 0 1) (field b 1 1) count
        (if field b 3 2 = 0xFFFF then none else some (field b 3 2)) (tallyEntries b 6 n))
    else none
  | 4 => if b.length = 2 then some (.bayAsk (field b 0 2)) else none
  | 5 => if b.length = 0 then some .bayDone else none
  | _ => none

/-- A frame of the own site as a bulletin, `none` when it fails the format check (R104). -/
def parseFrame (f : List Byte) : Option Bulletin :=
  match parseBody (field f 3 1 % 16) (f.drop 10) with
  | some body =>
    if 1 ≤ field f 2 1 ∧ field f 2 1 ≤ 32 then
      some ⟨field f 0 2, field f 2 1, field f 3 1 / 16, field f 4 1, field f 5 4, body⟩
    else none
  | none => none

/-- A link counter changed. -/
def State.modCounters (s : State) (f : LinkCounters → LinkCounters) : State :=
  s.setLink { s.link with counters := f s.link.counters }

/-- A frame that carries the own ID: counted, DUPLICATE_ID holds, with LINK attention on passage to
holding (R105). -/
def duplicateSeen (s : State) : State :=
  let s1 := s.modCounters (fun k => { k with duplicateId := count32 k.duplicateId })
  if s.link.duplicate then s1
  else
    raiseLink (fun c => { c with duplicate := true })
      ((s1.setLink { s1.link with duplicate := true }).modFlags (fun f => { f with duplicate := true }))

/-- The receiver turned on at the entry to STANDBY (R88). -/
def receiverOn (s : State) : State :=
  s.setLink { s.link with rx := .hunt, frame := [], lastAA := false, jamTimer := s.link.carrier }

/-- The receiver turned off at the entry to COMMISSION: the ring is emptied and the conditions cease
(R88). -/
def receiverOff (s : State) : State :=
  s.setLink { s.link with rx := .off, frame := [], lastAA := false, ring := [], jamTimer := false,
                          jammed := false, duplicate := false }

/-- PURGE_LINK: every queued bulletin but one in SENDING and every ring slot goes (R107). Taken in HUNT
directly after an AAh it also forgets that AAh, so that a 7Eh which comes next starts no frame: the model's
choice (log entry 22). -/
def purgeLink (s : State) : State :=
  let l := s.link
  let gone := l.displaceable
  let l1 := { l with
    queue := if l.tx = .sending then l.queue.take 1 else []
    tx := match l.tx with
      | .sending => .sending
      | .off => .off
      | _ => .idle
    ring := [], frame := [], lastAA := false
    rx := if l.rx = .off then .off else .hunt
    counters := { l.counters with purged := satAdd 4294967295 l.counters.purged gone.length } }
  linkWork (gone.map (fun q => LinkTask.left q.bulletin) ++ [.begin]) (s.setLink l1)

end Sys2Proof.Machine
end

