-- ==== Sys2Proof/Machine/Operands.lean ====
section
/-! DEFINITION. The request frames of the terminal port (section 11.5): the code and body of each
request, how a frame is read, and the modes in which each request is taken (Table 10-1). -/

namespace Sys2Proof.Machine

/-- Two bytes, most significant first, as a word. -/
def word2 (a b : Byte) : BitVec 16 := a ++ b

/-- Four bytes, most significant first, as a word. -/
def word4 (a b c d : Byte) : BitVec 32 := a ++ b ++ c ++ d

/-- The two bytes of a word, most significant first. -/
def bytes2 (x : BitVec 16) : List Byte := [(x >>> 8).setWidth 8, x.setWidth 8]

/-- The four bytes of a word, most significant first. -/
def bytes4 (x : BitVec 32) : List Byte :=
  [(x >>> 24).setWidth 8, (x >>> 16).setWidth 8, (x >>> 8).setWidth 8, x.setWidth 8]

/-- The code of a request (Table 11-9); an event has none. -/
def requestCode : Instr → Option Byte
  | .loadImageBegin _ | .loadImageData _ _ | .loadImageEnd => some 0x01
  | .commission => some 0x02
  | .setTime _ => some 0x03
  | .start => some 0x04
  | .park _ _ => some 0x05
  | .wake => some 0x06
  | .confirm _ _ _ => some 0x07
  | .manualId _ _ => some 0x08
  | .stop _ => some 0x09
  | .restore _ => some 0x0A
  | .setPrice _ _ => some 0x0B
  | .holdPrices => some 0x0C
  | .releasePrices => some 0x0D
  | .void _ => some 0x0E
  | .readJournal _ _ _ => some 0x0F
  | .exportDone _ => some 0x10
  | .stocktake _ _ => some 0x11
  | .purgeLink => some 0x12
  | .readPoint _ => some 0x13
  | .readAccount _ => some 0x14
  | .readStock => some 0x15
  | .readView _ => some 0x16
  | .readPeers => some 0x17
  | .readLink => some 0x18
  | .readStatus => some 0x19
  | .readAttention => some 0x1A
  | .readConditions => some 0x1B
  | .readFaults => some 0x1C
  | .reset => some 0x1D
  | _ => none

/-- The body of a request (Table 11-9); that of a request without parameters, and of an event, is
empty. -/
def requestBody : Instr → List Byte
  | .loadImageBegin total => 1 :: bytes2 total
  | .loadImageData offset bytes => 2 :: bytes2 offset ++ bytes
  | .loadImageEnd => [3]
  | .setTime t => bytes4 t
  | .park poll wake => [poll, wake]
  | .confirm point volume operator => point :: bytes4 volume ++ bytes2 operator
  | .manualId point fleet => point :: bytes2 fleet
  | .stop point => [point]
  | .restore point => [point]
  | .setPrice product price => product :: bytes4 price
  | .void seq => bytes4 seq
  | .readJournal mode filter count => [mode, filter, count]
  | .exportDone seq => bytes4 seq
  | .stocktake compartment volume => compartment :: bytes4 volume
  | .readPoint point => [point]
  | .readAccount account => [account]
  | .readView fleet => bytes2 fleet
  | _ => []

/-- A LOAD_IMAGE body (Table 11-9); DATA carries 1 to 200 bytes. A body whose step byte names none of the
steps 1..3 is malformed, and not INVALID: the model's choice (log entry 36). -/
def loadOf : List Byte → Option Instr
  | [] => none
  | step :: rest =>
    if step = 1 then
      match rest with
      | [a, b] => some (.loadImageBegin (word2 a b))
      | _ => none
    else if step = 2 then
      match rest with
      | a :: b :: x :: xs =>
        if (x :: xs).length ≤ 200 then some (.loadImageData (word2 a b) (x :: xs)) else none
      | _ => none
    else if step = 3 then
      match rest with
      | [] => some .loadImageEnd
      | _ => none
    else none

/-- The request that a code and a body spell (Table 11-9), `none` when the length of the body is not the
one its request allows (R177, R192). -/
def requestOf (code : Byte) (body : List Byte) : Option Instr :=
  match code.toNat, body with
  | 0x01, b => loadOf b
  | 0x02, [] => some .commission
  | 0x03, [a, b, c, d] => some (.setTime (word4 a b c d))
  | 0x04, [] => some .start
  | 0x05, [p, w] => some (.park p w)
  | 0x06, [] => some .wake
  | 0x07, [p, a, b, c, d, e, f] => some (.confirm p (word4 a b c d) (word2 e f))
  | 0x08, [p, a, b] => some (.manualId p (word2 a b))
  | 0x09, [p] => some (.stop p)
  | 0x0A, [p] => some (.restore p)
  | 0x0B, [q, a, b, c, d] => some (.setPrice q (word4 a b c d))
  | 0x0C, [] => some .holdPrices
  | 0x0D, [] => some .releasePrices
  | 0x0E, [a, b, c, d] => some (.void (word4 a b c d))
  | 0x0F, [m, f, n] => some (.readJournal m f n)
  | 0x10, [a, b, c, d] => some (.exportDone (word4 a b c d))
  | 0x11, [k, a, b, c, d] => some (.stocktake k (word4 a b c d))
  | 0x12, [] => some .purgeLink
  | 0x13, [p] => some (.readPoint p)
  | 0x14, [a] => some (.readAccount a)
  | 0x15, [] => some .readStock
  | 0x16, [a, b] => some (.readView (word2 a b))
  | 0x17, [] => some .readPeers
  | 0x18, [] => some .readLink
  | 0x19, [] => some .readStatus
  | 0x1A, [] => some .readAttention
  | 0x1B, [] => some .readConditions
  | 0x1C, [] => some .readFaults
  | 0x1D, [] => some .reset
  | _, _ => none

/-- A request frame: its code, the length of its body, its body (section 11.5). -/
def requestFrame (i : Instr) : Option (List Byte) :=
  (requestCode i).map (fun c => c :: be 2 (requestBody i).length ++ requestBody i)

/-- A request frame read (R177): `none` when it is malformed. -/
def parseRequest : List Byte → Option Instr
  | c :: a :: b :: body => if body.length = (word2 a b).toNat then requestOf c body else none
  | _ => none

/-- The modes in which a request is taken (Table 10-1); the fallback row is that of the requests taken
in every mode. -/
def takenIn (i : Instr) (m : Mode) : Bool :=
  match i with
  | .loadImageBegin _ | .loadImageData _ _ | .loadImageEnd => m == .commission
  | .commission | .setTime _ | .start => m == .standby
  | .park _ _ | .confirm _ _ _ | .manualId _ _ => m == .run
  | .wake => m == .run || m == .parked
  | .stop _ | .restore _ => m == .run || m == .halted
  | .setPrice _ _ | .holdPrices | .releasePrices | .void _ | .stocktake _ _ | .purgeLink
  | .readAccount _ | .readStock | .readView _ | .readPeers => m != .starting && m != .commission
  | .readJournal _ _ _ | .exportDone _ | .readPoint _ | .readLink => m != .starting
  | _ => true

end Sys2Proof.Machine
end

