-- ==== Sys2Proof/Machine/Allowance.lean ====
section
/-! DEFINITION. The Allowance Unit's operations: reports, holds, their refusals and removals (sections 4.1
to 4.3), and the answer of a preset (R82). -/

namespace Sys2Proof.Machine

/-- The most entries of the contribution table and of the hold list (R72, R75). -/
def contributionSize : Nat := 512
/-- The most entries of the hold list (R75). -/
def holdSize : Nat := 32

/-- A gap added to both gap counts of a peer, each stopping at 15 (R73, R76). -/
def addGap (station : Nat) (s : State) : State :=
  let x := s.peer station
  s.setPeer station { x with g := satAdd 15 x.g 1, h := satAdd 15 x.h 1 }

/-- A fleet number that is not in the roster counted (R72, R75). -/
def countUnknownFleet (s : State) : State :=
  s.setAllowance { s.allowance with unknownFleet := count16 s.allowance.unknownFleet }

/-- A refusal for want of room: a gap to the peer, VIEW_FULL set, LINK attention with the view-full
detail (R73, R76). -/
def refuseForRoom (station : Nat) (s : State) : State :=
  raiseLink (fun c => { c with viewFull := true }) (setViewFullFlag (addGap station s))

/-- The VIEW_FULL flag set when the view has just become full (R86). -/
def noteViewFull (s : State) : State := if s.viewFull then setViewFullFlag s else s

/-- Whether an entry of the contribution table is that of a peer and a machine. -/
def Contribution.isFor (peer fleet : Nat) (c : Contribution) : Bool := c.peer == peer && c.fleet == fleet

/-- Whether a hold is that of a peer and a machine. -/
def Hold.isFor (peer fleet : Nat) (h : Hold) : Bool := h.peer == peer && h.fleet == fleet

/-- A report (fleet number, cumulative) of a peer taken (R72, R73). -/
def absorbReport (peer fleet cumulative : Nat) (s : State) : State :=
  let v := min cumulative 2147483647
  let a := s.allowance
  if ¬ s.inRoster fleet then countUnknownFleet s
  else if a.contributions.any (Contribution.isFor peer fleet) then
    s.setAllowance { a with contributions := a.contributions.map (fun c =>
      if Contribution.isFor peer fleet c then { c with value := max c.value v } else c) }
  else if v = 0 then s
  else if a.contributions.length < contributionSize then
    noteViewFull (s.setAllowance { a with contributions := a.contributions ++ [⟨peer, fleet, v⟩] })
  else
    refuseForRoom peer
      (s.setAllowance { a with contributionRefusals := count16 a.contributionRefusals })

/-- The hold of a peer for a machine removed. -/
def removeHold (peer fleet : Nat) (s : State) : State :=
  s.setAllowance { s.allowance with
    holds := s.allowance.holds.filter (fun h => !Hold.isFor peer fleet h) }

/-- An OPEN bulletin absorbed (R75, R76). An expiry past 4,294,967,295, the top of site time, is held as the
whole sum: the model's choice (log entry 21). -/
def absorbOpen (peer fleet volume lifetime : Nat) (s : State) : State :=
  let a := s.allowance
  let life := min lifetime 3600
  let h : Hold := ⟨peer, fleet, min volume presetCap, s.now + life⟩
  if ¬ s.inRoster fleet then countUnknownFleet s
  else if life = 0 then removeHold peer fleet s
  else if a.holds.any (Hold.isFor peer fleet) then
    s.setAllowance { a with holds := a.holds.map (fun x => if Hold.isFor peer fleet x then h else x) }
  else if a.holds.length < holdSize then
    noteViewFull (s.setAllowance { a with holds := a.holds ++ [h] })
  else refuseForRoom peer (s.setAllowance { a with holdRefusals := count16 a.holdRefusals })

/-- A CLOSE bulletin absorbed: its report, then its hold (R74). For a fleet number not in the roster
it removes no hold. -/
def absorbClose (peer fleet cumulative : Nat) (s : State) : State :=
  let s1 := absorbReport peer fleet cumulative s
  if s.inRoster fleet then removeHold peer fleet s1 else s1

/-- The entries of a TALLY part absorbed in order (R72, R74). -/
def absorbTally (peer : Nat) (entries : List (Nat × Nat)) (s : State) : State :=
  entries.foldl (fun s e => absorbReport peer e.1 e.2 s) s

/-- Every hold of a peer removed in one operation (R78). -/
def removeHoldsOf (peer : Nat) (s : State) : State :=
  s.setAllowance { s.allowance with holds := s.allowance.holds.filter (fun h => h.peer != peer) }

/-- The hold of a peer for a machine removed when site time has reached its expiry time (R77). A hold that
has reached it and not passed it may also meet another command first (log entry 13). -/
def expireHold (peer fleet : Nat) (s : State) : State :=
  s.setAllowance { s.allowance with
    holds := s.allowance.holds.filter (fun h => !(Hold.isFor peer fleet h && decide (h.expiry ≤ s.now))) }

/-- Every hold whose expiry time site time has passed removed: no hold is present past its expiry (R77). -/
def dropPastHolds (s : State) : State :=
  s.setAllowance { s.allowance with
    holds := s.allowance.holds.filter (fun h => decide (s.now ≤ h.expiry)) }

/-- The view at a rollover: own totals zeroed, contributions and holds removed, the open-preset list
kept (R79). -/
def emptyView (s : State) : State :=
  s.setAllowance { s.allowance with own := [], contributions := [], holds := [] }

/-- The answer of a preset (R82): the volume, or the reason of the refusal (R83). -/
def presetAnswer (s : State) (p : PointId) (m : RosterRecord) (request : Nat) : Except RefusalReason Nat :=
  if (s.pp p).minFill ≤ s.presetOf p m request then .ok (s.presetOf p m request)
  else .error (s.presetRefusal p m)

/-- The entry a confirm's answer adds to the open-preset list (R70, R82). The list is in the order of
confirmation: the model's choice (log entry 23). -/
def addOpenPreset (p : PointId) (fleet preset : Nat) (s : State) : State :=
  s.setAllowance { s.allowance with openPresets := s.allowance.openPresets ++ [⟨p, fleet, preset⟩] }

/-- The third step of a delivery's close: the own shift total rises by N and the open-preset entry goes
(R68). -/
def deliverToView (p : PointId) (fleet : Nat) (net : Int) (s : State) : State :=
  let a := s.allowance.addDelivered fleet net
  s.setAllowance { a with openPresets := a.openPresets.filter (fun o => o.point != p) }

/-- The own totals rebuilt at START from the ring (R69). -/
def rebuildOwn (shift : Nat) (s : State) : State :=
  let add (a : Allowance) (r : Record) : Allowance :=
    match r.body with
    | .fill false f =>
      if r.closed && r.shift == some shift && s.inRoster (f.fleet.getD 0) then
        a.addDelivered (f.fleet.getD 0) f.net
      else a
    | _ => a
  s.setAllowance ((s.ring.map Prod.snd).foldl add { s.allowance with own := [] })

end Sys2Proof.Machine
end

