-- ==== Sys2Proof/Machine/Stock.lean ====
section
/-! DEFINITION. The Stock Unit's operations: book stock, the quiet timer, the variance check, the own
restock request and the restock queue (Chapter 7). -/

namespace Sys2Proof.Machine

/-! ### The restock queue (section 7.7) -/

/-- The most entries of the restock queue (R141). -/
def restockSize : Nat := 16

/-- An entry ranks above another: lower fraction, or equal fraction and lower station ID (R141). -/
def RestockEntry.above (a b : RestockEntry) : Bool :=
  decide (a.fraction < b.fraction) || (a.fraction == b.fraction && decide (a.station < b.station))

/-- An entry put into its place in the order (R141). -/
def insertEntry (e : RestockEntry) : List RestockEntry → List RestockEntry
  | [] => [e]
  | x :: xs => if e.above x then e :: x :: xs else x :: insertEntry e xs

/-- Whether a station has an entry. -/
def Stock.has (k : Stock) (station : Nat) : Bool := k.queue.any (fun e => e.station == station)

/-- The own station ID. -/
def State.own (s : State) : Nat := s.params.stationId

/-- Turn: the own entry's position is below the depot bay count (R145). -/
def State.turnNow (s : State) : Bool :=
  (s.stock.queue.take s.params.bays).any (fun e => e.station == s.own)

/-- Turn re-reckoned, with STOCK attention on passage to holding (R145). -/
def reckonTurn (s : State) : State :=
  let s1 := s.setStock { s.stock with turn := s.turnNow }
  if s.turnNow && !s.stock.turn then raiseStock (fun c => { c with turn := true }) s1 else s1

/-- The own-entry-displaced mark as the queue now has it: set while the request is active and the own
entry is not in the queue (R141). -/
def noteOwn (s : State) : State :=
  s.setStock { s.stock with displacedMark := s.stock.active && !s.stock.has s.own }

/-- An entry to be created: placed, or compared with the last entry of a full queue (R143). -/
def createEntry (e : RestockEntry) (s : State) : State :=
  let k := s.stock
  if k.queue.length < restockSize then
    reckonTurn (noteOwn (s.setStock { k with queue := insertEntry e k.queue }))
  else match k.queue.getLast? with
    | some last =>
      if e.above last then
        reckonTurn (noteOwn (s.setStock { k with queue := insertEntry e k.queue.dropLast
                                                 displaced := count16 k.displaced }))
      else reckonTurn (noteOwn (s.setStock { k with refused := count16 k.refused }))
    | none => s

/-- The own entry offered to the queue with the own fraction (R141). -/
def offerOwn (s : State) : State := createEntry ⟨s.own, s.stock.ownFraction, s.now⟩ s

/-- The own entry, when it was displaced or refused before a removal of another entry, offered again at
that removal (R141). -/
def offerOwnAgain (s : State) : State :=
  if s.stock.active && s.stock.displacedMark then offerOwn s else s

/-- An entry to be created displaces the last entry of a full queue (R143). -/
def Stock.displaces (k : Stock) (e : RestockEntry) : Bool :=
  decide (restockSize ≤ k.queue.length) &&
    match k.queue.getLast? with
    | some last => e.above last
    | none => false

/-- A peer's entry created (R143). One that displaces another peer's entry removes it, and an own entry
that was out of the queue is offered again (R141). -/
def createPeerEntry (e : RestockEntry) (s : State) : State :=
  if s.stock.displaces e && s.stock.displacedMark then offerOwnAgain (createEntry e s) else createEntry e s

/-- An entry removed. The own entry, if displaced or refused before, is offered again (R141). -/
def removeEntry (station : Nat) (s : State) : State :=
  if s.stock.has station then
    offerOwnAgain (reckonTurn (s.setStock { s.stock with
      queue := s.stock.queue.filter (fun e => e.station != station) }))
  else s

/-- An entry refreshed: it takes its place for the new fraction (R142, R141). -/
def refreshEntry (e : RestockEntry) (s : State) : State :=
  reckonTurn (s.setStock { s.stock with
    queue := insertEntry e (s.stock.queue.filter (fun x => x.station != e.station)) })

/-- A restock fraction of a peer taken (R142): above 1,000 it counts as 1,000. -/
def takeFraction (station fraction : Nat) (s : State) : State :=
  let e : RestockEntry := ⟨station, min fraction 1000, s.now⟩
  if s.stock.has station then refreshEntry e s else createPeerEntry e s

/-- A peer's entry removed when it has not been refreshed for three tally periods (R144). -/
def ageEntry (station : Nat) (s : State) : State :=
  if s.stock.queue.any (fun e => e.station == station && e.station != s.own &&
      decide (e.refresh + 3 * s.params.period ≤ s.now)) then removeEntry station s
  else s

/-! ### The own restock request (R140) -/

/-- Some present compartment is at or below its ask level. -/
def State.asks (s : State) : Bool :=
  s.presentComps.any (fun x => decide (s.fraction x ≤ x.2.askLevel))

/-- Every present compartment is at or above its clear level. -/
def State.clears (s : State) : Bool :=
  s.presentComps.all (fun x => decide (x.2.clearLevel ≤ s.fraction x))

/-- The own restock request evaluated; `receipt` says whether the evaluation follows a receipt's
close (R140, R141). -/
def evaluateRestock (receipt : Bool) (s : State) : State :=
  let f := s.ownFractionNow
  let changed := f != s.stock.ownFraction
  let s1 := s.setStock { s.stock with ownFraction := f }
  if ¬ s.stock.active then
    if s.asks then
      offerOwn (queueBulletin (.bayAsk f) (s1.setStock { s1.stock with active := true }))
    else s1
  else if receipt && s.clears then
    let s2 := queueBulletin .bayDone (s1.setStock { s1.stock with active := false, displacedMark := false })
    removeEntry s2.own s2
  else if s1.stock.has s1.own then
    match s1.stock.queue.find? (fun e => e.station == s1.own) with
    | some e => refreshEntry { e with fraction := f } s1
    | none => s1
  else if changed then offerOwn s1
  else s1

/-! ### Compartments -/

/-- The quiet timer of a compartment stopped at 0 (R138). -/
def stopQuiet (c : CompId) (s : State) : State := s.setComp c { s.comp c with quiet := none }

/-- The quiet timer of a compartment restarted from 0, from START on (R134, R138). -/
def restartQuiet (c : CompId) (s : State) : State :=
  if s.started then s.setComp c { s.comp c with quiet := some 0 } else s

/-- The fourth step of a close: N subtracted from the book stock on a delivery, added on a receipt
(R133). -/
def bookClose (receipt : Bool) (c : CompId) (net : Int) (s : State) : State :=
  let k := s.comp c
  s.setComp c { k with book := if receipt then k.book + net else k.book - net }

/-- A variance check of a compartment whose probe is valid (R139). -/
def judgeVariance (c : CompId) (tolerance : Nat) (s : State) : State :=
  let k := s.comp c
  let v : Int := (k.volume.getD 0 : Nat)
  if (v - k.book).natAbs > tolerance * 1000 then
    let n := satAdd 3 k.varianceCount 1
    if n = 3 then
      let s1 := (s.setComp c { k with varianceCount := n, variance := true }).modFlags
        (fun f => { f with variance := f.variance.set c true })
      if k.variance then s1
      else raiseStock (fun x => { x with variance := x.variance.set c true }) s1
    else s.setComp c { k with varianceCount := n }
  else s.setComp c { k with varianceCount := 0, variance := false }

/-- The seconds after which a variance check falls due (R138). -/
def quietPeriod : Nat := 600

/-- The quiet timer of a compartment has reached 600 s: the check is made when the probe is valid, and
the timer restarts from 0 (R138). Before 600 s no check falls due. -/
def varianceDue (c : CompId) (s : State) : State :=
  match s.cp c, (s.comp c).quiet with
  | some k, some n =>
    if s.started ∧ quietPeriod ≤ n then
      restartQuiet c (if (s.comp c).probe = .valid then judgeVariance c k.tolerance s else s)
    else s
  | _, _ => s

/-- The book figure of a compartment after a stock-take, with the variance settled (R134). -/
def setBook (c : CompId) (volume : Nat) (s : State) : State :=
  s.setComp c { s.comp c with book := volume, varianceCount := 0, variance := false }

end Sys2Proof.Machine
end

