-- ==== Sys2Proof/Machine/Points.lean ====
section
/-! DEFINITION. The Point Controller (Chapter 2) with the powering of its tag line (R5), PARK taking
effect (R186) and the metering channel's reports to its point (Chapter 3). -/

namespace Sys2Proof.Machine

/-! ### Tag line power and the entry to a state -/

/-- A tag line as it is after it has been powered up or down: everything empty but the error counts
(R5). -/
def TagLine.repower (on : Bool) (l : TagLine) : TagLine :=
  { TagLine.reset with
    powered := on, timeoutErrors := l.timeoutErrors, checkErrors := l.checkErrors,
    overrunErrors := l.overrunErrors }

/-- Whether the tag line of a point in a state is powered in a mode (R5). -/
def linePowered (m : Mode) (x : PointState) : Bool :=
  m == .run && x != .idle && x != .outOfService

/-- The tag line of a point powered up or down as its point's state and the mode require (R5). -/
def powerLine (p : PointId) (s : State) : State :=
  let on := linePowered s.mode (s.point p).state
  if (s.line p).powered = on then s else s.setLine p ((s.line p).repower on)

/-- Every tag line powered as its point's state and the mode require: after a change of mode (R5). -/
def powerLines (s : State) : State := allPoints.foldl (fun s p => powerLine p s) s

/-- A point changed, its tag line powered accordingly. -/
def putPoint (p : PointId) (x : Point) (s : State) : State := powerLine p (s.setPoint p x)

/-- The runs in progress of the scanner discarded (R1). -/
def Debounce.discard (d : Debounce) : Debounce := { d with run := none, length := 0 }

/-- Every run in progress discarded, as the sampling interval changes (R1). -/
def discardRuns (s : State) : State :=
  let x := s.scanner
  s.setScanner ⟨#v[x.points[0].discard, x.points[1].discard, x.points[2].discard, x.points[3].discard],
    x.brake.discard, x.estop.discard, x.cal.discard⟩

/-- The park takes effect (R186): PARKED, the mark cleared, the scanner at the poll interval. -/
def takePark (s : State) : State :=
  discardRuns ((s.setPort { s.port with parkPending := false }).setMode .parked)

/-- The park takes effect when it is pending and every point is IDLE (R185). -/
def checkPark (s : State) : State :=
  if s.port.parkPending && s.mode == .run && s.allIdle then takePark s else s

/-- A point enters IDLE: its context is emptied and its tag line powered down; a pending park may take
effect (R19, R5, R185). -/
def enterIdle (p : PointId) (s : State) : State :=
  checkPark (putPoint p { Point.reset with valve := (s.point p).valve } s)

/-- Whether the switch of a point shows HOLSTERED, or OPEN on a receipt point (R40, R41). -/
def State.atRest (s : State) (p : PointId) : Bool := s.switchAt p == some false

/-- A point returns to IDLE at once when its switch already shows HOLSTERED or OPEN (R40). -/
def settleAtRest (p : PointId) (s : State) : State := if s.atRest p then enterIdle p s else s

/-- A point enters REFUSED with a reason, its context otherwise as given (R19, R44, R40). -/
def enterRefused (p : PointId) (r : RefusalReason) (c : FillContext) (s : State) : State :=
  settleAtRest p (raisePoint p (.refused r)
    (putPoint p { s.point p with state := .refused, timers := .stopped,
                                 ctx := { c with refusal := some r } } s))

/-- A point that has no machine is refused: from IDLE or IDENT (R21, R22). -/
def refuseBare (p : PointId) (r : RefusalReason) (s : State) : State :=
  enterRefused p r .empty s

/-- A refusal event in IDENT or OFFERED: the context of an offer is kept (R22, R24). -/
def refuseEvent (p : PointId) (r : RefusalReason) (s : State) : State :=
  match (s.point p).state with
  | .ident => refuseBare p r s
  | .offered => enterRefused p r (s.point p).ctx s
  | _ => s

/-! ### Ending a fill (section 2.8) -/

/-- The point enters CLOSING with an end reason (R32). -/
def enterClosing (p : PointId) (e : EndCause) (s : State) : State :=
  let x := s.point p
  putPoint p { x with
    state := .closing
    timers := { PointTimers.stopped with settle := true, closeTimeout := true }
    ctx := { x.ctx with endReason := some e } } s

/-- An end cause reaches a point: it acts in PRIMING, FLOWING, SLOWING and PAUSED (R32). -/
def endCause (p : PointId) (e : EndCause) (s : State) : State :=
  if (s.point p).state.endable then enterClosing p e s else s

/-- A meter fault of a point (R37). -/
def meterFault (p : PointId) (s : State) : State :=
  if (s.point p).state.isOpen then
    let s1 := endCause p .meterFault s
    let x := s1.point p
    markFault p (fun m => { m with meter := true })
      (s1.setPoint p { x with outMark := true, ctx := { x.ctx with disputed := true } })
  else s

/-! ### Flow (section 2.6) -/

/-- The point leaves PRIMING: for SLOWING when the slow target is already reached, else for FLOWING
(R27, R29). -/
def leavePriming (p : PointId) (s : State) : State :=
  let x := s.point p
  let m := s.meter p
  let slow := match m.slowTarget with
    | some t => decide (t ≤ m.live)
    | none => false
  if slow then
    s.setPoint p { x with state := .slowing, timers := { x.timers with noFlow := false, prime := false } }
  else s.setPoint p { x with state := .flowing, timers := { x.timers with prime := false } }

/-- The slow target is reported reached (R28). -/
def slowReached (p : PointId) (s : State) : State :=
  let x := s.point p
  if x.state = .flowing then
    s.setPoint p { x with state := .slowing, timers := { x.timers with noFlow := false } }
  else s

/-- The stop target is reported reached (R27, R28, R30). -/
def stopReached (p : PointId) (s : State) : State := endCause p .preset s

/-- The prime time elapses (R27). -/
def primeElapsed (p : PointId) (s : State) : State :=
  let x := s.point p
  if x.state = .priming ∧ x.timers.prime then
    let s1 := s.setPoint p { x with timers := { x.timers with prime := false } }
    if x.counted then leavePriming p s1 else s1
  else s

/-- A count took the live raw count from below a target to at or above it (R62). -/
def crossed (old new : Int) : Option Int → Bool
  | some t => decide (old < t) && decide (t ≤ new)
  | none => false

/-- What a forward count does at its point (R27 to R29, R62). -/
def forwardCount (p : PointId) (s : State) : State :=
  let x := s.point p
  let m := s.meter p
  let s1 := if x.state = .priming then s.setPoint p { x with counted := true } else s
  let s2 := if crossed (m.live - 1) m.live m.slowTarget then slowReached p s1 else s1
  let s3 := if crossed (m.live - 1) m.live m.stopTarget then stopReached p s2 else s2
  let y := s3.point p
  if y.state = .priming ∧ ¬ y.timers.prime then leavePriming p s3 else s3

/-- The meter inputs are powered (R46). -/
def State.metersPowered (s : State) : Bool :=
  s.powered && (s.mode == .run || s.mode == .halted)

/-- An edge of a meter line (R47, R49). When one edge both makes a forward count and brings the fault
counter above its limit, the order of the two reports is free (section 2.8). -/
def meterEdge (p : PointId) (line : MeterLine) (s : State) : State :=
  let m := { s.meter p with pin := togglePhase (s.meter p).pin line }
  if ¬ s.metersPowered then s.setMeter p m
  else
    let q := togglePhase m.phase line
    if ¬ m.counting then s.setMeter p { m with phase := q }
    else
      let (m1, fault) := judgeEdge (s.pp p).faultLimit line (m.count q)
      let s1 := s.setMeter p m1
      match decide (countOf m.phase q = 1), fault with
      | true, true =>
        if Config.reportOrder s.free % 2 = 0 then (meterFault p (forwardCount p s1)).bumpFree
        else (forwardCount p (meterFault p s1)).bumpFree
      | true, false => forwardCount p s1
      | false, true => meterFault p s1
      | false, false => s1

/-- A double transition of a meter (R48). -/
def doubleTransition (p : PointId) (s : State) : State :=
  let m := { s.meter p with pin := oppositePhase (s.meter p).pin }
  if ¬ s.metersPowered then s.setMeter p m
  else if ¬ m.counting then s.setMeter p { m with phase := oppositePhase m.phase }
  else
    let (m1, fault) := judgeDouble (s.pp p).faultLimit m
    let s1 := s.setMeter p m1
    if fault then meterFault p s1 else s1

/-- A recomputed target at or below the live raw count (R62). -/
def reached (m : Channel) : Option Int → Bool
  | some t => decide (t ≤ m.live)
  | none => false

/-- An interval end except the final one (R51). -/
def intervalEnd (p : PointId) (t : TempReading) (s : State) : State :=
  if s.powered ∧ (s.meter p).counting then
    let s1 := noteTemperature p t s
    let s2 := s1.setMeter p (s.intervalFigures p 1000 t (s1.meter p))
    let s3 := if (s2.meter p).gross ≥ hardLimit then endCause p .limit s2 else s2
    let s4 := s3.setMeter p (s3.targetsAt p (s3.meter p))
    let m := s4.meter p
    let s5 := if reached m m.slowTarget then slowReached p s4 else s4
    let s6 := if reached m m.stopTarget then stopReached p s5 else s5
    handCheckpoint p m.checkpoint s6
  else s

/-- The sample of a STOPPED channel, that of an UNUSED point included, taken in RUN and HALTED (R53,
R45). -/
def stoppedSample (p : PointId) (t : TempReading) (s : State) : State :=
  if s.metersPowered ∧ ¬ (s.meter p).counting then noteTemperature p t s else s

/-! ### Opening a fill (sections 2.5, 2.11) -/

/-- The OPEN record's fill fields (R26, Table 8-2). -/
def State.openRecord (s : State) (p : PointId) : FillRecord :=
  let c := (s.point p).ctx
  { timeClosed := none
    point := p
    compartment := s.compartmentOf p
    product := s.productAt p
    fleet := c.machine.map RosterRecord.fleet
    account := c.machine.map RosterRecord.account
    price := c.price
    operator := c.operator.getD 0
    manual := c.manual
    uncompensated := false
    backflow := false
    overrun := false
    disputed := false
    endReason := none
    preset := c.preset.getD 0
    gross := 0
    net := 0
    tm := 0
    cost := none
    calibrationCount := s.params.calibrationCount
    areaA := ⟨true, Checkpoint.zero⟩
    areaB := ⟨true, Checkpoint.zero⟩ }

/-- The context of a point changed. -/
def State.modCtx (s : State) (p : PointId) (f : FillContext → FillContext) : State :=
  s.setPoint p { s.point p with ctx := f (s.point p).ctx }

/-- The price latched at the opening of a delivery (R26, R163). -/
def State.priceFor (s : State) (p : PointId) : Nat :=
  match productOf (s.productAt p) with
  | some q => s.journal.current[q]
  | none => 0

/-- The point enters PRIMING with fresh prime and no-flow timers (R26, R31). -/
def enterPriming (p : PointId) (s : State) : State :=
  putPoint p { s.point p with
    state := .priming, counted := false,
    timers := { PointTimers.stopped with prime := true, noFlow := true } } s

/-- A fill opened (R26): the price latched on a delivery, the OPEN record written into the slot set
aside, the OPEN bulletin queued on a delivery, PRIMING entered, the channel started. -/
def openFill (p : PointId) (s : State) : State :=
  let receipt := s.role p == .receipt
  let s1 := if receipt then s else s.modCtx p (fun c => { c with price := some (s.priceFor p) })
  let slot := s1.journal.writePosition
  let seq := s1.journal.nextSeq
  let s2 := dropCheckpoints p (appendOpen (.fill receipt (s1.openRecord p)) s1)
  let s3 := s2.modCtx p (fun c => { c with slot := some slot, seq := some seq })
  let c := (s3.point p).ctx
  let s4 := if receipt then s3
    else queueBulletin (.openFill ((c.machine.map RosterRecord.fleet).getD 0) (c.preset.getD 0)
      s.params.maxFill (pointNo p)) s3
  let s5 := enterPriming p s4
  stopQuiet (s.compartmentOf p) (s5.setMeter p (s5.targetsAt p (s5.meter p).open))

/-- How a confirm is answered: refused with a reason, or accepted with the preset and journal seq
(R25). -/
inductive ConfirmAnswer where
  | refused (r : RefusalReason)
  | accepted (preset seq : Nat)
deriving DecidableEq, Repr

/-- The probe check of a receipt: valid, and at or above the high level (R42). -/
def State.probeFull (s : State) (c : CompId) : Bool :=
  match s.cp c, (s.comp c).level with
  | some k, some l => (s.comp c).probe == .valid && decide (k.highLevel ≤ l)
  | _, _ => false

/-- The preset a receipt is given: the least of the request, the space and 20,000,000 mL, refused
below the minimum fill (R42). -/
def receiptAnswer (s : State) (p : PointId) (request : Nat) : Except RefusalReason Nat :=
  let n := min (min request (s.space (s.compartmentOf p))) presetCap
  if n < (s.pp p).minFill then .error .noSpace else .ok n

/-- The last checks of a confirm, after the receipt and journal checks: the preset, or a reason. -/
def State.confirmPreset (s : State) (p : PointId) (request : Nat) : Except RefusalReason Nat :=
  match s.role p, (s.point p).ctx.machine with
  | .receipt, _ =>
    if s.probeFull (s.compartmentOf p) then .error .full else receiptAnswer s p request
  | _, some m => presetAnswer s p m request
  | _, none => .error .unknownTag

/-- A confirm refused: REFUSED with the reason, POINT attention (R25). -/
def refuseConfirm (p : PointId) (r : RefusalReason) (s : State) : State × ConfirmAnswer :=
  (enterRefused p r (s.point p).ctx s, .refused r)

/-- The confirm of an OFFERED point with a requested volume and operator ID (R25, R42, R150). -/
def confirmPoint (p : PointId) (volume operator : Nat) (s : State) : State × ConfirmAnswer :=
  let request := max volume (s.pp p).minFill
  if s.receiptOpen (s.compartmentOf p) then refuseConfirm p .compartmentBusy s
  else if ¬ s.aboveFloor then refuseConfirm p .journalFull s
  else
    let s1 := setSlotAside s
    match s1.confirmPreset p request with
    | .error r => refuseConfirm p r (giveSlotBack s1)
    | .ok n =>
      let s2 := s1.modCtx p (fun c =>
        { c with request := some request, operator := some operator, preset := some n })
      let s3 := match s2.role p, (s2.point p).ctx.machine with
        | .delivery, some m => addOpenPreset p m.fleet n s2
        | _, _ => s2
      (openFill p s3, .accepted n s3.journal.nextSeq)

/-! ### From lift to offer (sections 2.4, 2.11) -/

/-- The offer computation for a found machine (R23), with the confirm at once on an auto-confirm point. -/
def offerMachine (p : PointId) (m : RosterRecord) (tag : Option TagId) (s : State) : State :=
  let named : FillContext := { FillContext.empty with named := some (m.fleet, m.account) }
  if s.receiptOpen (s.compartmentOf p) then enterRefused p .compartmentBusy named s
  else if ¬ s.aboveFloor then enterRefused p .journalFull named s
  else match presetAnswer s p m (s.pp p).defaultPreset with
    | .error r => enterRefused p r named s
    | .ok n =>
      let c : FillContext :=
        { FillContext.empty with machine := some m, tag := tag, manual := tag.isNone, offer := some n }
      if (s.pp p).autoConfirm then
        let s1 := putPoint p { s.point p with state := .offered, timers := .stopped, ctx := c } s
        (confirmPoint p (s.pp p).defaultPreset 0 s1).1
      else
        raisePoint p (.offer n) (putPoint p { s.point p with
          state := .offered, timers := { PointTimers.stopped with confirm := true }, ctx := c } s)

/-- The outcome of a lookup for a point (R15, R16): a reason, or found. -/
def lookupOutcome (s : State) (p : PointId) : Option RosterRecord → Except RefusalReason RosterRecord
  | none => .error .unknownTag
  | some m =>
    if m.barred then .error .barred
    else match productOf (s.productAt p) with
      | some q => if m.products.getLsbD q then .ok m else .error .wrongProduct
      | none => .error .wrongProduct

/-- A lookup made for an IDENT point and acted on (R22); the outcome is the second part. -/
def identify (p : PointId) (found : Option RosterRecord) (tag : Option TagId) (s : State) :
    State × Option RefusalReason :=
  match lookupOutcome s p found with
  | .ok m => (offerMachine p m tag s, none)
  | .error r =>
    (enterRefused p r { FillContext.empty with named := found.map (fun m => (m.fleet, m.account)) } s,
      some r)

/-- A LIFTED report to a delivery point, or a LIFTED switch found as the mode enters RUN (R21). -/
def lift (p : PointId) (s : State) : State :=
  if (s.point p).state ≠ .idle then s
  else match s.mode with
    | .halted => refuseBare p .halted s
    | .run =>
      if s.scanner.estop.value ≠ some false then refuseBare p .estop s
      else if s.scanner.brake.value ≠ some true then refuseBare p .brake s
      else if s.port.parkPending then refuseBare p .parkPending s
      else putPoint p { Point.reset with state := .ident, valve := (s.point p).valve } s
    | _ => s

/-- The offer of a receipt point at a coupling closure (R42). -/
def offerReceipt (p : PointId) (s : State) : State :=
  let c := s.compartmentOf p
  if s.receiptOpen c then refuseBare p .compartmentBusy s
  else if ¬ s.aboveFloor then refuseBare p .journalFull s
  else if s.probeFull c then refuseBare p .full s
  else match receiptAnswer s p presetCap with
    | .error r => refuseBare p r s
    | .ok n =>
      raisePoint p (.offer n) (putPoint p { s.point p with
        state := .offered, timers := { PointTimers.stopped with confirm := true },
        ctx := { FillContext.empty with offer := some n } } s)

/-- A CLOSED report to a receipt point, or a CLOSED switch found as the mode enters RUN (R42). -/
def couplingClosed (p : PointId) (s : State) : State :=
  if (s.point p).state ≠ .idle then s
  else match s.mode with
    | .halted => refuseBare p .halted s
    | .run =>
      if s.scanner.estop.value ≠ some false then refuseBare p .estop s
      else if s.port.parkPending then refuseBare p .parkPending s
      else offerReceipt p s
    | _ => s

/-- A HOLSTERED report to a delivery point (R22, R24, R32, R40). -/
def holstered (p : PointId) (s : State) : State :=
  match (s.point p).state with
  | .ident | .offered | .ended | .refused => enterIdle p s
  | .priming | .flowing | .slowing | .paused => enterClosing p .holstered s
  | .idle | .closing | .outOfService => s

/-- An OPEN report to a receipt point (R40, R43). -/
def couplingOpen (p : PointId) (s : State) : State :=
  match (s.point p).state with
  | .offered | .ended | .refused => enterIdle p s
  | .priming | .flowing | .slowing => enterClosing p .couplingOpen s
  | .idle | .ident | .paused | .closing | .outOfService => s

/-- A report of a point switch taken by its Point Controller (R3). -/
def pointSwitch (p : PointId) (v : Bool) (s : State) : State :=
  match s.role p, v with
  | .delivery, true => lift p s
  | .delivery, false => holstered p s
  | .receipt, true => couplingClosed p s
  | .receipt, false => couplingOpen p s
  | .unused, _ => s

/-- The switch of a point looked at as the mode enters RUN (R21, R42). -/
def levelRule (p : PointId) (s : State) : State :=
  if s.switchAt p = some true then pointSwitch p true s else s

/-- Every point switch looked at as the mode enters RUN (R172 step 7, R187). -/
def levelRules (s : State) : State := allPoints.foldl (fun s p => levelRule p s) s

/-! ### Tag reports (sections 2.4, 2.7) -/

/-- Whether the work of a point was identified by tag. -/
def Point.byTag (x : Point) : Bool := x.ctx.tag.isSome

/-- PRESENT reaches a delivery point (R22, R24, R31). -/
def presentReport (p : PointId) (t : TagId) (s : State) : State :=
  if s.role p ≠ .delivery then s
  else match (s.point p).state with
    | .ident => (identify p (s.machineByTag t) (some t) s).1
    | .paused =>
      if (s.point p).ctx.tag = some t then enterPriming p s else enterClosing p .tagChanged s
    | _ => s

/-- The point enters PAUSED (R30). -/
def enterPaused (p : PointId) (s : State) : State :=
  putPoint p { s.point p with
    state := .paused, timers := { PointTimers.stopped with grace := true } } s

/-- ABSENT reaches a delivery point (R22, R24, R30). -/
def absentReport (p : PointId) (s : State) : State :=
  if s.role p ≠ .delivery ∨ ¬ (s.point p).byTag then s
  else match (s.point p).state with
    | .offered =>
      putPoint p { s.point p with state := .ident, timers := .stopped, ctx := .empty } s
    | .priming | .flowing | .slowing => enterPaused p s
    | _ => s

/-- CHANGED reaches a delivery point (R24, R32). -/
def changedReport (p : PointId) (s : State) : State :=
  if s.role p ≠ .delivery ∨ ¬ (s.point p).byTag then s
  else match (s.point p).state with
    | .offered => refuseEvent p .tagChanged s
    | .priming | .flowing | .slowing => enterClosing p .tagChanged s
    | _ => s

/-! ### Events that reach several points -/

/-- The assertion of ESTOP at a point (R34). -/
def estopPoint (p : PointId) (s : State) : State := refuseEvent p .estop (endCause p .estop s)

/-- The release of the park brake at a point (R35); a receipt point does not react. -/
def brakePoint (p : PointId) (s : State) : State :=
  if s.role p = .delivery then refuseEvent p .brake (endCause p .brakeReleased s) else s

/-- The mode entering HALTED at a point (R36). -/
def haltPoint (p : PointId) (s : State) : State := refuseEvent p .halted (endCause p .halt s)

/-- Something done at each point in ascending order. -/
def eachPoint (f : PointId → State → State) (s : State) : State := allPoints.foldl (fun s p => f p s) s

/-- LOW_LEVEL of a compartment reported to its delivery points (R37, R132). -/
def lowLevel (c : CompId) (s : State) : State :=
  eachPoint (fun p s =>
    if s.role p = .delivery ∧ s.compartmentOf p = c then endCause p .lowLevel s else s) s

/-- FULL of a compartment reported to its receipt points (R43, R132). -/
def probeFullReport (c : CompId) (s : State) : State :=
  eachPoint (fun p s =>
    if s.role p = .receipt ∧ s.compartmentOf p = c then endCause p .full s else s) s

/-! ### Closing (section 2.9) -/

/-- The fill fields that the close of a record writes (R154, R63). -/
def FillRecord.close (now : Option Nat) (m : Channel) (cost : Option Int) (c : FillContext)
    (f : FillRecord) : FillRecord :=
  { f with
    timeClosed := now, gross := m.gross, net := m.net, tm := m.tm, cost := cost,
    uncompensated := m.uncompensated, backflow := m.backflow, overrun := m.overrun,
    disputed := c.disputed, endReason := c.endReason,
    areaA := ⟨true, m.checkpoint⟩, areaB := ⟨true, m.checkpoint⟩ }

/-- The first step of a close: the final interval taken, OVERRUN judged, counting stopped (R63). -/
def finalInterval (p : PointId) (d : Nat) (t : TempReading) (s : State) : State :=
  let s1 := noteTemperature p t s
  let m := s.intervalFigures p d t (s1.meter p)
  s1.setMeter p { m with
    counting := false, intervalTimer := false,
    overrun := overrunOf m.net ((s.point p).ctx.preset.getD 0 : Nat) }

/-- The cost of a delivery (R59), none on a receipt. -/
def State.closeCost (s : State) (p : PointId) : Option Int :=
  if s.role p = .receipt then none
  else some (costOf (s.meter p).net ((s.point p).ctx.price.getD 0 : Nat))

/-- The second step of a close: the record closed in place (R154). -/
def closeRecord (p : PointId) (s : State) : State :=
  let c := (s.point p).ctx
  let m := s.meter p
  let s1 := dropCheckpoints p s
  match c.slot with
  | some k =>
    updateSlot k (fun r =>
      { (r.mapFill (FillRecord.close s.peers.siteTime m (s.closeCost p) c)) with
        closed := true, shift := s.peers.shift }) s1
  | none => s1

/-- The six steps of the completion of a close (R39). -/
def closeSteps (p : PointId) (d : Nat) (t : TempReading) (s : State) : State :=
  let s1 := closeRecord p (finalInterval p d t s)
  let n := (s1.meter p).net
  let c := s1.compartmentOf p
  match s1.role p, (s1.point p).ctx.machine with
  | .delivery, some m =>
    let s2 := bookClose false c n (deliverToView p m.fleet n s1)
    let s3 := s2.setJournal
      (addToAccount m.account n ((s1.closeCost p).getD 0) 1
        (addToFigures (s1.productAt p) n s2.journal))
    queueBulletin (.closeFill m.fleet (s3.allowance.ownTotal m.fleet) n.toNat (pointNo p)) s3
  | _, _ => bookClose true c n s1

/-- The completion of a close (R38, R39, R41): after the steps the point enters ENDED, or OUT_OF_SERVICE
when it is so marked; then the evaluations that follow a close (R133). The mark stays set in OUT_OF_SERVICE,
until RESTORE or a reset: the model's choice (log entry 33). -/
def completeClose (p : PointId) (d : Nat) (t : TempReading) (s : State) : State :=
  let c := s.compartmentOf p
  let receipt := s.role p == .receipt
  let s1 := closeSteps p d t s
  let out := (s1.point p).outMark
  let x := s1.point p
  let s2 := putPoint p { x with
    state := if out then .outOfService else .ended, timers := .stopped } s1
  let s3 := if s2.fillOpenOn c then s2 else restartQuiet c s2
  let s4 := raisePoint p (.ended x.ctx.endReason) (evaluateRestock receipt s3)
  if out then s4 else settleAtRest p s4

/-- The close settle timer expires (R38). -/
def settleExpired (p : PointId) (d : Nat) (t : TempReading) (s : State) : State :=
  if (s.point p).state = .closing ∧ (s.point p).timers.settle then completeClose p d t s else s

/-- The close timeout expires (R38): VALVE_FAULT replaces the end reason, DISPUTED and the VALVE mark
are set, and the point goes OUT_OF_SERVICE. That it is marked so as a meter fault marks it is the model's
choice (log entry 33). -/
def closeTimedOut (p : PointId) (d : Nat) (t : TempReading) (s : State) : State :=
  let x := s.point p
  if x.state = .closing ∧ x.timers.closeTimeout then
    completeClose p d t (markFault p (fun m => { m with valve := true })
      (s.setPoint p { x with
        outMark := true, ctx := { x.ctx with endReason := some .valveFault, disputed := true } }))
  else s

/-! ### Other timers of a point -/

/-- The confirm window expires (R24). -/
def confirmExpired (p : PointId) (s : State) : State :=
  if (s.point p).state = .offered ∧ (s.point p).timers.confirm then refuseEvent p .confirmTimeout s else s

/-- The no-flow timer expires (R29). -/
def noFlowExpired (p : PointId) (s : State) : State :=
  let x := s.point p
  if (x.state = .priming ∨ x.state = .flowing) ∧ x.timers.noFlow then
    markFault p (fun m => { m with noFlow := true }) (endCause p .noFlow s)
  else s

/-- The pause grace timer expires (R31). -/
def graceExpired (p : PointId) (s : State) : State :=
  if (s.point p).state = .paused ∧ (s.point p).timers.grace then enterClosing p .tagLost s else s

end Sys2Proof.Machine
end

