-- ==== Sys2Proof/Machine/Scanner.lean ====
section
/-! DEFINITION. The Switch Scanner (section 1.1) and the wake it brings (R187). -/

namespace Sys2Proof.Machine

/-- What the sampling of one input reports: its initial value or a change, with the value (R1, R2). -/
inductive SwitchEvent where
  | initial (v : Bool)
  | change (v : Bool)
deriving DecidableEq, Repr

/-- The value a report carries. -/
def SwitchEvent.value : SwitchEvent → Bool
  | .initial v => v
  | .change v => v

/-- The length of the run of a sample: one more than a run of the same value, else 1. -/
def Debounce.runOf (d : Debounce) (v : Bool) : Nat := if d.run = some v then d.length + 1 else 1

/-- One sample of an input (R1, R2): `need` is the length at which a change is recognised. -/
def Debounce.sample (need : Nat) (d : Debounce) (v : Bool) : Debounce × Option SwitchEvent :=
  match d.value with
  | none =>
    if d.runOf v ≥ 3 then (⟨some v, some v, d.runOf v⟩, some (.initial v))
    else (⟨none, some v, d.runOf v⟩, none)
  | some x =>
    if v = x then (⟨some x, none, 0⟩, none)
    else if d.runOf v ≥ need then (⟨some v, some v, d.runOf v⟩, some (.change v))
    else (⟨some x, some v, d.runOf v⟩, none)

/-- The run length at which a change is recognised: 3 at the 10 ms interval, 2 at the poll interval,
that of PARKED (R1). -/
def State.runNeeded (s : State) : Nat := if s.mode = .parked then 2 else 3

/-- A report of the scanner with the input it concerns. -/
inductive SwitchReport where
  | point (p : PointId) (e : SwitchEvent)
  | brake (e : SwitchEvent)
  | estop (e : SwitchEvent)
  | cal (e : SwitchEvent)
deriving DecidableEq, Repr

/-- Every input sampled together (R1): the scanner after the sample. -/
def Scanner.sample (need : Nat) (x : Scanner) (l : SwitchLevels) : Scanner where
  points := #v[(x.points[0].sample need l.points[0]).1, (x.points[1].sample need l.points[1]).1,
    (x.points[2].sample need l.points[2]).1, (x.points[3].sample need l.points[3]).1]
  brake := (x.brake.sample need l.brake).1
  estop := (x.estop.sample need l.estop).1
  cal := (x.cal.sample need l.cal).1

/-- The reports that a sample brings (R2 to R4). -/
def Scanner.reports (need : Nat) (x : Scanner) (l : SwitchLevels) : List SwitchReport :=
  (allPoints.filterMap (fun p => (x.points[p].sample need l.points[p]).2.map (SwitchReport.point p))) ++
  ((x.brake.sample need l.brake).2.map SwitchReport.brake).toList ++
  ((x.estop.sample need l.estop).2.map SwitchReport.estop).toList ++
  ((x.cal.sample need l.cal).2.map SwitchReport.cal).toList

/-- The mode enters RUN from PARKED by a wake (R187): the meters powered, the scanner at 10 ms, WOKE
set with the reason, and every switch looked at. -/
def wakeUp (r : WakeReason) (s : State) : State :=
  let s1 := discardRuns (powerMeters (s.setMode .run))
  levelRules (s1.setPort { s1.port with woke := true, wakeReason := some r })

/-- A report delivered to its receivers (R2 to R4, R187). -/
def deliver : SwitchReport → State → State
  | .point p (.change v), s =>
    if s.mode = .parked ∧ s.port.wakeEnables[p] then wakeUp (.switch p) s else pointSwitch p v s
  | .point p (.initial v), s => pointSwitch p v s
  | .brake e, s => if e.value then s else eachPoint brakePoint s
  | .estop e, s => if e.value then eachPoint estopPoint (raiseEstop s) else s
  | .cal e, s => s.setMetrology { s.metrology with cal := some e.value }

/-- A list taken in the order a number codes: each choice is the number modulo what is left. -/
def permuteFrom {α : Type} : Nat → Nat → List α → List α
  | 0, _, _ => []
  | k + 1, n, l =>
    match l[n % l.length]? with
    | some x => x :: permuteFrom k (n / l.length) (l.eraseIdx (n % l.length))
    | none => []

/-- The reports of a sample delivered; which of several is taken first is free (section 2.4, R32,
R187). -/
def deliverAll : List SwitchReport → State → State
  | [], s => s
  | [r], s => deliver r s
  | rs, s =>
    (permuteFrom rs.length (Config.reportOrder s.free) rs).foldl (fun s r => deliver r s) s.bumpFree

/-- A sample of all seven inputs (R1, R2). -/
def switchSample (l : SwitchLevels) (s : State) : State :=
  if s.powered then
    deliverAll (s.scanner.reports s.runNeeded l) (s.setScanner (s.scanner.sample s.runNeeded l))
  else s

end Sys2Proof.Machine
end

