-- ==== Sys2Proof/Machine/Metrology.lean ====
section
/-! DEFINITION. The Metrology Check Unit's checks (section 9.5) and the halt they bring (R174, R36). -/

namespace Sys2Proof.Machine

/-- The length of a metrology section (R190). -/
def metrologyLength : Nat := 383

/-- Where the metrology section begins in an image (Table 11-4). -/
def metrologyBase : Nat := 16

/-- `n` bytes of a list from an offset. -/
def slice (b : List Byte) (off n : Nat) : List Byte := (b.drop off).take n

/-- The bytes of a point's metering values (Table 11-5). -/
def MeterParams.bytes (m : MeterParams) : List Byte :=
  be 4 m.k ++ be 2 m.t1 ++ be 2 m.t2 ++ be 2 m.t3 ++ be 2 m.f[0] ++ be 2 m.f[1] ++ be 2 m.f[2] ++
    be 2 m.f[3]

/-- The bytes of a product's metering values (Table 11-5). -/
def ProductParams.bytes (q : ProductParams) : List Byte := be 1 q.alpha ++ [flagByte q.compensated]

/-- The bytes of a strapping table (Table 11-5), with the bytes held at the places of unused points. -/
def strappingBytes (kept : List Byte) (t : List (Nat × Nat)) : List Byte :=
  be 1 t.length ++ t.flatMap (fun x => be 2 x.1 ++ be 4 x.2) ++ kept.drop (1 + 6 * t.length)

/-- Some point's channel takes the values of a product (R45). -/
def State.productInUse (s : State) (product : Nat) : Bool :=
  allPoints.any (fun p => s.role p != .unused && s.productAt p == product)

/-- The bytes that the metrology values in use would occupy, with the bytes kept from STARTING where
no block holds a value (R173, R190). -/
def State.workingSection (s : State) : List Byte :=
  let kept := s.params.metrologyBytes
  be 4 s.params.calibrationCount ++
  allPoints.flatMap (fun p =>
    match s.params.meters[p] with
    | some m => m.bytes
    | none => slice kept (4 + 18 * p.val) 18) ++
  (List.finRange 8).flatMap (fun q =>
    if s.productInUse (q.val + 1) then (s.params.products[q]).bytes
    else slice kept (76 + 2 * q.val) 2) ++
  allComps.flatMap (fun c =>
    match s.cp c with
    | some k => strappingBytes (slice kept (92 + 97 * c.val) 97) k.strapping
    | none => slice kept (92 + 97 * c.val) 97)

/-- The seconds of the check timer (R174). -/
def checkPeriod : Nat := 3600

/-- A cause for a metrology check (R173): a check begins, or waits; in HALTED nothing. -/
def beginCheck (s : State) : State :=
  if s.mode = .halted then s
  else if s.metrology.checking then s.setMetrology { s.metrology with checkPending := true }
  else s.setMetrology { s.metrology with checking := true, timer := some checkPeriod }

/-- The check timer expires (R174): it does so when no second is left on it. -/
def checkTimerExpired (s : State) : State :=
  if s.metrology.timer = some 0 ∧ (s.mode = .run ∨ s.mode = .parked) then beginCheck s else s

/-- The cells of the area in force as record memory now returns them (log entry 11). -/
def RecordMemory.readAgain (m : RecordMemory) (changed : List Host.Cell) : RecordMemory :=
  match m.selector with
  | some x => changed.foldl (fun m c => m.write (.byte x c.1 c.2)) m
  | none => m

/-- The cells of the area in force; none when the selector names neither. -/
def RecordMemory.inForce (m : RecordMemory) : List Host.Cell :=
  match m.selector with
  | some x => m.area x
  | none => []

/-- The three codes of a check (R173); `worn` is what working memory has lost (log entry 11). -/
def State.checkCodes (s : State) (worn : BitVec 32) : Codes where
  stored := BitVec.ofNat 32 (Mem.readBe s.rm.inForce 6 4)
  memory := crc32 (Mem.readBytes s.rm.inForce metrologyBase metrologyLength)
  working := crc32 s.workingSection ^^^ worn

/-- A check passes when all three codes equal the running reference (R173). -/
def Codes.pass (c : Codes) (reference : Option (BitVec 32)) : Bool :=
  reference == some c.stored && c.memory == c.stored && c.working == c.stored

/-- The mode enters HALTED on a mismatch (R174, R36, R185). The check timer, which runs in RUN and PARKED
alone, is then stopped with no time left to show: the model's choice (log entry 23). -/
def enterHalted (c : Codes) (s : State) : State :=
  let s1 := (s.setMetrology { s.metrology with
      status := .failed, codes := some c, timer := none, checkPending := false }).setMode .halted
  let s2 := raiseHalt c (s1.setPort { s1.port with parkPending := false })
  let s3 := if s.mode = .parked then discardRuns (powerMeters s2) else s2
  eachPoint haltPoint (powerLines s3)

/-- A metrology check completes (R173, R174). The time of the last check is the site time of its
completion: the model's choice (log entry 32). -/
def checkComplete (changed : List Host.Cell) (worn : BitVec 32) (s : State) : State :=
  if s.metrology.checking then
    let s1 := s.setRm (s.rm.readAgain changed)
    let c := s1.checkCodes worn
    let ok := c.pass s1.metrology.reference
    let s2 := s1.setMetrology { s1.metrology with
      checking := false, last := some ⟨s1.peers.siteTime, ok⟩ }
    if ok then
      let s3 := s2.setMetrology { s2.metrology with status := .good, checkPending := false }
      if s2.metrology.checkPending then beginCheck s3 else s3
    else enterHalted c s2
  else s

end Sys2Proof.Machine
end

