-- ==== Sys2Proof/Machine/Image.lean ====
section
/-! DEFINITION. The configuration image: its validity (R165), its values as read in STARTING (R14, R17,
R45, R118, R121, R127, R185), the checks and the commit of a load (R166 to R168, R190). -/

namespace Sys2Proof.Machine

/-! ### Validity (R165) -/

/-- An image area is valid (R165). -/
def imageValid (m : List Host.Cell) : Bool :=
  let total := Mem.readBe m 0 2
  let ml := Mem.readBe m 2 2
  let ol := Mem.readBe m 4 2
  decide (64 ≤ total) && decide (total ≤ 32768) && decide (metrologyBase + ml + ol = total) &&
    (crc32 (Mem.readBytes m metrologyBase ml)).toNat == Mem.readBe m 6 4 &&
    (crc32 (Mem.readBytes m (metrologyBase + ml) ol)).toNat == Mem.readBe m 10 4

/-- The metrology section of an area is sound (R165), and as long as R190 says. -/
def metrologySound (m : List Host.Cell) : Bool :=
  Mem.readBe m 2 2 == metrologyLength &&
    (crc32 (Mem.readBytes m metrologyBase metrologyLength)).toNat == Mem.readBe m 6 4

/-! ### The values of an image -/

/-- A number brought into a range (section 0.6, "clamped"). -/
def clamp (lo hi n : Nat) : Nat := max lo (min hi n)

/-- The address of the operational section: directly after the metrology section. -/
def opBase (m : List Host.Cell) : Nat := metrologyBase + Mem.readBe m 2 2

/-- The address of the fields of a point in the operational section. -/
def pointBase (m : List Host.Cell) (p : PointId) : Nat := opBase m + 54 + 26 * p.val

/-- The address of the fields of a compartment in the operational section. -/
def compBase (m : List Host.Cell) (c : CompId) : Nat := opBase m + 158 + 24 * c.val

/-- The address of a roster record. -/
def rosterBase (m : List Host.Cell) (r : Nat) : Nat := opBase m + 232 + 21 * r

/-- The address of a point's metering values. -/
def meterBase (p : PointId) : Nat := metrologyBase + 4 + 18 * p.val

/-- The address of a product's metering values. -/
def productBase (q : Nat) : Nat := metrologyBase + 76 + 2 * q

/-- The address of a compartment's strapping table. -/
def strapBase (c : CompId) : Nat := metrologyBase + 92 + 97 * c.val

/-- The role a code stands for (Table 11-6). -/
def roleOf : Nat → Role
  | 1 => .delivery
  | 2 => .receipt
  | _ => .unused

/-- The role of a point in an image. -/
def imageRole (m : List Host.Cell) (p : PointId) : Role := roleOf (Mem.readBe m (pointBase m p) 1)

/-- A compartment is present when its byte is 01h (Table 11-6). -/
def imagePresent (m : List Host.Cell) (c : CompId) : Bool := Mem.read m (compBase m c) == 1

/-- The parameters of a point as used: clamped as Table 2-2 states (R17, R12). Its volumes are read as
unsigned numbers: the model's choice (log entry 34). -/
def readPoint (m : List Host.Cell) (p : PointId) : PointParams :=
  let b := pointBase m p
  match imageRole m p with
  | .unused => PointParams.unused
  | role =>
    let minFill := clamp 500 50000 (Mem.readBe m (b + 3) 4)
    { role := role
      compartment := (compOf (Mem.readBe m (b + 1) 1)).getD 0
      autoConfirm := Mem.read m (b + 2) == 1
      minFill := minFill
      defaultPreset := clamp minFill presetCap (Mem.readBe m (b + 7) 4)
      slowdown := clamp 0 50000 (Mem.readBe m (b + 11) 4)
      primeTime := clamp 5 100 (Mem.readBe m (b + 15) 2)
      noFlowTime := clamp 5 120 (Mem.readBe m (b + 17) 2)
      pauseGrace := clamp 5 120 (Mem.readBe m (b + 19) 2)
      tagLoss := clamp 5 100 (Mem.readBe m (b + 21) 2)
      settleTime := clamp 1 10 (Mem.readBe m (b + 23) 2)
      faultLimit := clamp 2 64 (Mem.readBe m (b + 25) 1) }

/-- A signed number of two bytes. -/
def readSigned2 (m : List Host.Cell) (k : Nat) : Int := signed 2 (Mem.readBe m k 2)

/-- The metering values of a point (R45). -/
def readMeter (m : List Host.Cell) (p : PointId) : MeterParams :=
  let b := meterBase p
  { k := Mem.readBe m b 4
    t1 := Mem.readBe m (b + 4) 2
    t2 := Mem.readBe m (b + 6) 2
    t3 := Mem.readBe m (b + 8) 2
    f := #v[readSigned2 m (b + 10), readSigned2 m (b + 12), readSigned2 m (b + 14),
      readSigned2 m (b + 16)] }

/-- The metering values of a product (R45). -/
def readProduct (m : List Host.Cell) (q : Nat) : ProductParams :=
  ⟨Mem.readBe m (productBase q) 1, Mem.read m (productBase q + 1) == 1⟩

/-- `n` strapping points from an address on. -/
def readStrapping (m : List Host.Cell) (k : Nat) : Nat → List (Nat × Nat)
  | 0 => []
  | n + 1 => (Mem.readBe m k 2, Mem.readBe m (k + 2) 4) :: readStrapping m (k + 6) n

/-- The strapping table of a compartment. -/
def imageStrapping (m : List Host.Cell) (c : CompId) : List (Nat × Nat) :=
  readStrapping m (strapBase c + 1) (min 16 (Mem.readBe m (strapBase c) 1))

/-- The parameters of a compartment (Table 7-1). -/
def readComp (m : List Host.Cell) (c : CompId) : CompParams :=
  let b := compBase m c
  { product := Mem.readBe m (b + 1) 1
    capacity := Mem.readBe m (b + 2) 4
    reserve := Mem.readBe m (b + 6) 4
    ullage := Mem.readBe m (b + 10) 2
    highLevel := Mem.readBe m (b + 12) 2
    askLevel := Mem.readBe m (b + 14) 2
    clearLevel := Mem.readBe m (b + 16) 2
    tolerance := Mem.readBe m (b + 18) 2
    opening := Mem.readBe m (b + 20) 4
    strapping := imageStrapping m c }

/-- A field that FFFFFFFFh makes absent (Table 11-6). -/
def optional4 (n : Nat) : Option Nat := if n = 0xFFFFFFFF then none else some n

/-- A roster record (Tables 1-5 and 11-6). Its volumes are read as unsigned numbers: the model's choice
(log entry 34). -/
def readRosterRecord (m : List Host.Cell) (r : Nat) : RosterRecord :=
  let b := rosterBase m r
  { fleet := Mem.readBe m b 2
    tag := BitVec.ofNat 64 (Mem.readBe m (b + 2) 8)
    account := Mem.readBe m (b + 10) 1
    products := Mem.read m (b + 11)
    allowance := optional4 (Mem.readBe m (b + 12) 4)
    tank := optional4 (Mem.readBe m (b + 16) 4)
    barred := Mem.read m (b + 20) == 1 }

/-- The number of roster records. -/
def rosterCount (m : List Host.Cell) : Nat := Mem.readBe m (opBase m + 230) 2

/-- The roster (R14). -/
def readRoster (m : List Host.Cell) : List RosterRecord :=
  (List.range (rosterCount m)).map (readRosterRecord m)

/-- A shift start time by its position (Table 11-6). -/
def shiftStart (m : List Host.Cell) (i : Nat) : Nat := Mem.readBe m (opBase m + 14 + 2 * i) 2

/-- The shift table (R118). -/
def readShifts (m : List Host.Cell) : List Nat :=
  (List.range (Mem.readBe m (opBase m + 13) 1)).map (shiftStart m)

/-- The values in use that an image gives (R165). -/
def readParams (m : List Host.Cell) : Params :=
  let o := opBase m
  { found := true
    siteCode := Mem.readBe m o 2
    stationId := Mem.readBe m (o + 2) 1
    bays := clamp 1 4 (Mem.readBe m (o + 3) 1)
    maxFill := clamp 60 3600 (Mem.readBe m (o + 6) 2)
    period := 60 * clamp 1 30 (Mem.readBe m (o + 8) 1)
    gapReserve := clamp 0 500000 (1000 * Mem.readBe m (o + 9) 2)
    gapCap := clamp 0 5000000 (1000 * Mem.readBe m (o + 11) 2)
    shiftStarts := readShifts m
    defaultPrices := Vector.ofFn (fun q : Fin 8 => Mem.readBe m (o + 22 + 4 * q.val) 4)
    points := Vector.ofFn (readPoint m)
    meters := Vector.ofFn (fun p => if imageRole m p = .unused then none else some (readMeter m p))
    products := Vector.ofFn (fun q : Fin 8 => readProduct m q.val)
    comps := Vector.ofFn (fun c => if imagePresent m c then some (readComp m c) else none)
    roster := readRoster m
    calibrationCount := Mem.readBe m metrologyBase 4
    metrologyBytes := Mem.readBytes m metrologyBase metrologyLength }

/-- The poll code an image gives (R185). -/
def readPollCode (m : List Host.Cell) : Nat := min 15 (Mem.readBe m (opBase m + 4) 1)

/-- The wake enables that a byte gives: bits 0 to 3 are P1 to P4 (Tables 11-6 and 11-9). The bits above have
no meaning there and are passed over: the model's choice (log entries 18 and 36). -/
def wakeBits (b : Byte) : Vector Bool 4 :=
  #v[b.getLsbD 0, b.getLsbD 1, b.getLsbD 2, b.getLsbD 3]

/-! ### The checks of a staged image (R167, R190) -/

/-- One check: the position it gives when it fails, and whether it passes. -/
abbrev Check := Nat × Bool

/-- A number lies in a range. -/
def within (lo hi n : Nat) : Bool := decide (lo ≤ n) && decide (n ≤ hi)

/-- A signed number lies in a range. -/
def withinInt (lo hi n : Int) : Bool := decide (lo ≤ n) && decide (n ≤ hi)

/-- The header checks in order (R165, R190). -/
def headerChecks (m : List Host.Cell) : List Check :=
  let ml := Mem.readBe m 2 2
  let ol := Mem.readBe m 4 2
  [ (0, within 64 32768 (Mem.readBe m 0 2)),
    (2, ml == metrologyLength),
    (4, decide (232 ≤ ol) && ol == 232 + 21 * rosterCount m),
    (0, metrologyBase + ml + ol == Mem.readBe m 0 2),
    (metrologyBase, (crc32 (Mem.readBytes m metrologyBase ml)).toNat == Mem.readBe m 6 4),
    (metrologyBase + ml, (crc32 (Mem.readBytes m (metrologyBase + ml) ol)).toNat == Mem.readBe m 10 4) ]

/-- The checks of a point's metering values (R45). Of two thresholds that do not ascend the position given is
that of the later one: the model's choice (log entry 18). -/
def meterChecks (m : List Host.Cell) (p : PointId) : List Check :=
  let b := meterBase p
  let x := readMeter m p
  let f (i : Fin 4) : Check := (b + 10 + 2 * i.val, withinInt (-500) 500 x.f[i])
  if imageRole m p = .unused then []
  else [(b, within 1000 1000000 x.k), (b + 6, decide (x.t1 < x.t2)), (b + 8, decide (x.t2 < x.t3)),
    f 0, f 1, f 2, f 3]

/-- Some point in use draws from or fills a compartment that holds a product (R45). -/
def imageProductUsed (m : List Host.Cell) (q : Nat) : Bool :=
  allPoints.any (fun p => imageRole m p != .unused &&
    match compOf (Mem.readBe m (pointBase m p + 1) 1) with
    | some c => imagePresent m c && Mem.readBe m (compBase m c + 1) 1 == q + 1
    | none => false)

/-- The checks of a product's metering values (R45). -/
def productChecks (m : List Host.Cell) (q : Nat) : List Check :=
  if imageProductUsed m q then
    [(productBase q, within 0 200 (Mem.readBe m (productBase q) 1)),
     (productBase q + 1, within 0 1 (Mem.readBe m (productBase q + 1) 1))]
  else []

/-- The checks of the points of a strapping table: levels strictly ascend, volumes do not decrease
(R127). -/
def strapPointChecks : Nat → List (Nat × Nat) → List Check
  | k, (l0, v0) :: (l1, v1) :: rest =>
    (k + 6, decide (l0 < l1)) :: (k + 8, decide (v0 ≤ v1)) :: strapPointChecks (k + 6) ((l1, v1) :: rest)
  | _, _ => []

/-- The checks of a compartment's strapping table (R127). -/
def strapChecks (m : List Host.Cell) (c : CompId) : List Check :=
  if imagePresent m c then
    (strapBase c, within 2 16 (Mem.readBe m (strapBase c) 1)) ::
      strapPointChecks (strapBase c + 1) (imageStrapping m c)
  else []

/-- The checks of the shift table (R118). -/
def shiftChecks (m : List Host.Cell) : List Check :=
  let o := opBase m
  let n := Mem.readBe m (o + 13) 1
  (o + 13, within 1 4 n) ::
    (List.range (min n 4)).map (fun i =>
      (o + 14 + 2 * i, within 0 1439 (shiftStart m i) &&
        (i == 0 || decide (shiftStart m (i - 1) < shiftStart m i))))

/-- The checks of a point's fields: the role, and the compartment named and present (R17, R127). -/
def pointChecks (m : List Host.Cell) (p : PointId) : List Check :=
  let b := pointBase m p
  (b, within 0 2 (Mem.readBe m b 1)) ::
    (if imageRole m p = .unused then [] else
      [(b + 1, match compOf (Mem.readBe m (b + 1) 1) with
        | some c => imagePresent m c
        | none => false)])

/-- The checks of a compartment's fields (R127). -/
def compChecks (m : List Host.Cell) (c : CompId) : List Check :=
  let b := compBase m c
  let x := readComp m c
  if imagePresent m c then
    [(b + 1, within 1 8 x.product), (b + 2, within 100 50000 x.capacity),
     (b + 6, decide (x.reserve ≤ x.capacity)), (b + 10, decide (x.ullage ≤ 200)),
     (b + 12, decide (x.highLevel ≤ 60000)), (b + 14, decide (x.askLevel ≤ 1000)),
     (b + 16, within x.askLevel 1000 x.clearLevel), (b + 18, decide (x.tolerance ≤ 5000)),
     (b + 20, decide (x.opening ≤ x.capacity * 1000))]
  else []

/-- The checks of a roster record against the records before it (R14). -/
def rosterChecks (m : List Host.Cell) (r : Nat) : List Check :=
  let b := rosterBase m r
  let x := readRosterRecord m r
  let before := (List.range r).map (readRosterRecord m)
  [(b, decide (x.fleet ≠ 0) && !before.any (fun y => y.fleet == x.fleet)),
   (b + 2, x.tag == 0 || !before.any (fun y => y.tag == x.tag)),
   (b + 10, within 1 32 x.account),
   (b + 12, match x.allowance with
     | some a => decide (a ≤ 100000000)
     | none => true),
   (b + 16, match x.tank with
     | some t => within 1 20000000 t
     | none => true)]

/-- The checks of the values in ascending order of position (R167). Where a rule relates two fields, the
position of a fault is that of the one that stands later: the model's choice (log entry 18). -/
def valueChecks (m : List Host.Cell) : List Check :=
  let o := opBase m
  allPoints.flatMap (meterChecks m) ++
  (List.range 8).flatMap (productChecks m) ++
  allComps.flatMap (strapChecks m) ++
  [(o, decide (Mem.readBe m o 2 ≠ 0)), (o + 2, within 1 32 (Mem.readBe m (o + 2) 1))] ++
  shiftChecks m ++
  allPoints.flatMap (pointChecks m) ++
  [(o + 158, allComps.any (imagePresent m))] ++
  allComps.flatMap (compChecks m) ++
  [(o + 230, decide (rosterCount m ≤ 512))] ++
  (List.range (min 512 (rosterCount m))).flatMap (rosterChecks m)

/-- The position of the first check that fails. -/
def firstFault : List Check → Option Nat
  | [] => none
  | (k, ok) :: rest => if ok then firstFault rest else some k

/-! ### The load (R166 to R168) -/

/-- The area not in force, A when the selector names neither (R166). -/
def RecordMemory.staging (m : RecordMemory) : Area :=
  match m.selector with
  | some .a => .b
  | some .b => .a
  | none => .a

/-- The calibration count and check code of the area in force, 0 and 0 without a sound metrology
section (R168). -/
def RecordMemory.oldMetrology (m : RecordMemory) : Nat × BitVec 32 :=
  if m.selector.isSome && metrologySound m.inForce then
    (Mem.readBe m.inForce metrologyBase 4, BitVec.ofNat 32 (Mem.readBe m.inForce 6 4))
  else (0, 0)

/-- The comparison of the staged metrology section with that of the area in force finds a change
(R168). -/
def RecordMemory.calibrates (m : RecordMemory) : Bool :=
  !(m.selector.isSome && metrologySound m.inForce) ||
    Mem.readBytes (m.area m.staging) (metrologyBase + 4) (metrologyLength - 4) !=
      Mem.readBytes m.inForce (metrologyBase + 4) (metrologyLength - 4)

/-- The calibration count a load writes (R168), a 32-bit number. After 4,294,967,295 comes 0: the model's
choice (log entry 35). -/
def RecordMemory.newCount (m : RecordMemory) : Nat :=
  if m.calibrates then (m.oldMetrology.1 + 1) % 2 ^ 32 else m.oldMetrology.1

/-- The metrology check code of the staged section with the new count in it (R168, R190). -/
def RecordMemory.newCode (m : RecordMemory) : BitVec 32 :=
  crc32 (be 4 m.newCount ++ Mem.readBytes (m.area m.staging) (metrologyBase + 4) (metrologyLength - 4))

/-- The baselines a load sets: of each present compartment that has none, from its opening stock
(R135, R168). -/
def RecordMemory.newBaselines (m : RecordMemory) : List RmWrite :=
  let image := m.area m.staging
  (allComps.filter (fun c => imagePresent image c && m.baselines[c].isNone)).map
    (fun c => .baseline c ⟨(readComp image c).opening, 0⟩)

/-- The writes of an accepted load up to its second step (R168): the count and code into the staged
section when the count differs, the selector, the missing baselines. -/
def RecordMemory.loadWrites (m : RecordMemory) : List RmWrite :=
  let x := m.staging
  (if Mem.readBe (m.area x) metrologyBase 4 = m.newCount then []
   else byteWrites x metrologyBase (be 4 m.newCount) ++ byteWrites x 6 (be 4 m.newCode.toNat)) ++
  [.selector x] ++ m.newBaselines

/-- The checks of a staged image: the position of a fault, if any (R167). -/
def RecordMemory.stagedFault (m : RecordMemory) : Option Nat :=
  let image := m.area m.staging
  match firstFault (headerChecks image) with
  | some k => some k
  | none => firstFault (valueChecks image)

end Sys2Proof.Machine
end

