-- ==== Sys2Proof/Machine/Peers.lean ====
section
/-! DEFINITION. The Peer and Shift Unit (Chapter 6): bulletins taken, tally rounds heard, silence and
loss, rollover, site time; and the frames of the receive ring (R103 to R106), probes (section 7.2). -/

namespace Sys2Proof.Machine

/-! ### Rollover (R120) -/

/-- Every own delivery fill now open, with its point, fleet number and remaining preset (R89). -/
def State.reannounced (s : State) : List BulletinBody :=
  allPoints.filterMap (fun p =>
    let x := s.point p
    match s.role p, x.ctx.machine with
    | .delivery, some m =>
      if x.state.isOpen then
        some (.openFill m.fleet
          ((x.ctx.preset.getD 0 : Int) - (s.meter p).net).toNat s.params.maxFill (pointNo p))
      else none
    | _, _ => none)

/-- The gap counts of a peer entry zeroed (R120 step 4). -/
def Peer.zeroGaps (x : Peer) : Peer := { x with g := 0, h := 0 }

/-- Step 1 of a rollover: the SHIFT_CLOSE record of the shift being left (R155). -/
def rolloverRecord (s : State) : State :=
  let f := s.journal.figures
  appendOrLose (.shiftClose s.shiftNo f.nets f.deliveries f.voids) s

/-- Steps 2 to 5 of a rollover: the new shift, the totals zeroed, the view emptied, the gaps zeroed, the
round ended. -/
def rolloverTotals (shift : Nat) (s : State) : State :=
  let s1 := emptyView (s.setJournal (zeroTotals s.journal))
  s1.setPeers { s1.peers with
    shift := some shift, table := s1.peers.table.map Peer.zeroGaps, round := none, pendingCount := 1 }

/-- A rollover to a shift (R120). A normal round that is then due starts at its end (R122). -/
def rollover (shift : Nat) (s : State) : State :=
  let s1 := rolloverTotals shift (rolloverRecord s)
  linkWork [] (beginCheck (s1.reannounced.foldl (fun s b => queueBulletin b s) s1))

/-! ### Taking a bulletin (R110 to R114) -/

/-- The entry of a peer re-initialised from a bulletin (R111). -/
def reinitEntry (b : Bulletin) (now : Nat) : Peer where
  state := .active
  epoch := some b.epoch
  last := some b.seq
  g := 15
  h := 0
  round := none
  parts := none
  mask := 0
  complete := false
  heard := some now

/-- The holds and the restock entry of a peer given up (R111, R116). -/
def forgetPeer (station : Nat) (s : State) : State := removeEntry station (removeHoldsOf station s)

/-- The re-initialisation of a sender's entry (R111). -/
def reinitPeer (b : Bulletin) (s : State) : State :=
  let x := s.peer b.station
  let s1 := s.setPeer b.station (reinitEntry b s.now)
  match x.state with
  | .active | .silent =>
    forgetPeer b.station
      (s1.setPeers { s1.peers with epochChanges := count16 s1.peers.epochChanges })
  | .unknown | .lost => s1

/-- A new round begun in an entry when the part belongs to none it holds (R114). -/
def Peer.beginRound (x : Peer) (round parts : Nat) : Peer :=
  if x.round = some round ∧ x.parts = some parts then x
  else { x with round := some round, parts := some parts, mask := 0, complete := false, h := 0 }

/-- Whether a mask holds every index from 0 to `parts` − 1. -/
def maskFull (mask : BitVec 14) (parts : Nat) : Bool := (List.range parts).all (fun i => mask.getLsbD i)

/-- A part marked, and the round completed when every part has been heard (R114). -/
def Peer.markPart (x : Peer) (index parts : Nat) : Peer :=
  let mask := x.mask ||| ((1 : BitVec 14) <<< index)
  if !x.complete && maskFull mask parts then { x with mask := mask, complete := true, g := x.h }
  else { x with mask := mask }

/-- The restock fraction of a TALLY part (R142). -/
def takeTallyFraction (station : Nat) (fraction : Option Nat) (s : State) : State :=
  match fraction with
  | some f => takeFraction station f s
  | none => removeEntry station s

/-- An accepted TALLY part followed and handed on (R113, R114). -/
def takeTally (b : Bulletin) (round index parts : Nat) (fraction : Option Nat)
    (entries : List (Nat × Nat)) (s : State) : State :=
  let s1 := s.setPeer b.station ((s.peer b.station).beginRound round parts)
  let s2 := if b.shift = s1.shiftNo then absorbTally b.station entries s1 else s1
  let s3 := takeTallyFraction b.station fraction s2
  s3.setPeer b.station ((s3.peer b.station).markPart index parts)

/-- An accepted bulletin handed on by kind (R113). -/
def handOn (b : Bulletin) (s : State) : State :=
  match b.body with
  | .openFill f h l _ => if b.shift = s.shiftNo then absorbOpen b.station f h l s else s
  | .closeFill f c _ _ => if b.shift = s.shiftNo then absorbClose b.station f c s else s
  | .tally r i n fr es => takeTally b r i n fr es s
  | .bayAsk f => takeFraction b.station f s
  | .bayDone => removeEntry b.station s

/-- The entry of a peer heard: ACTIVE, its last heard time now (R111, R112). -/
def Peer.hear (x : Peer) (now : Nat) : Peer := { x with state := .active, heard := some now }

/-- The distance of a sequence number from the last accepted (R112). -/
def seqDistance (s l : Nat) : Nat := (s + 256 - l % 256) % 256

/-- A bulletin of a known entry and epoch judged by its distance (R112). -/
def judgeSequence (b : Bulletin) (s : State) : State :=
  let x := s.peer b.station
  let d := seqDistance b.seq (x.last.getD 0)
  if d = 0 then
    let s1 := s.setPeer b.station (x.hear s.now)
    s1.setPeers { s1.peers with duplicates := count16 s1.peers.duplicates }
  else if d ≤ 127 then
    handOn b (s.setPeer b.station { x.hear s.now with
      last := some b.seq, g := satAdd 15 x.g (d - 1), h := satAdd 15 x.h (d - 1) })
  else
    let s1 := s.setPeer b.station (x.hear s.now)
    s1.setPeers { s1.peers with stale := count16 s1.peers.stale }

/-- Whether the entry of a sender is started afresh by a bulletin (R111). -/
def Peer.startsAfresh (x : Peer) (b : Bulletin) : Bool :=
  x.state == .unknown || x.state == .lost || x.epoch != some b.epoch

/-- The rollover a bulletin of a higher shift brings (R110). -/
def adoptShift (b : Bulletin) (s : State) : State :=
  if b.shift > s.shiftNo then
    let s1 := rollover b.shift s
    s1.setPeers { s1.peers with adopted := count16 s1.peers.adopted }
  else s

/-- A good bulletin taken (R110 to R114). -/
def takeBulletin (b : Bulletin) (s : State) : State :=
  let s1 := adoptShift b s
  if (s1.peer b.station).startsAfresh b then handOn b (reinitPeer b s1) else judgeSequence b s1

/-! ### Frames (R103 to R106) -/

/-- A GOOD frame checked and taken (R104 to R106). -/
def goodFrame (f : List Byte) (s : State) : State :=
  if field f 0 2 ≠ s.params.siteCode then s
  else match parseFrame f with
    | none => s.modCounters (fun k => { k with formatErrors := count32 k.formatErrors })
    | some b =>
      if b.station = s.params.stationId then duplicateSeen s
      else
        let s1 := s.modCounters (fun k => { k with good := count32 k.good })
        if s.started then takeBulletin b s1 else s1

/-- The oldest frame of the ring taken (R103). -/
def frameTaken (s : State) : State :=
  match s.link.ring with
  | [] => s
  | x :: rest =>
    let s1 := s.setLink { s.link with ring := rest }
    match x.status with
    | .good => goodFrame x.bytes s1
    | .crcError => s1.modCounters (fun k => { k with crcErrors := count32 k.crcErrors })
    | .lengthError => s1.modCounters (fun k => { k with lengthErrors := count32 k.lengthErrors })
    | .gapError => s1.modCounters (fun k => { k with gapErrors := count32 k.gapErrors })

/-- Three tally periods have passed without a frame of the own ID (R105). -/
def duplicateCeases (s : State) : State := s.setLink { s.link with duplicate := false }

/-! ### Silence and loss (R115, R116) -/

/-- Site time has reached the last heard time of a peer plus `n` tally periods. -/
def State.unheardFor (s : State) (x : Peer) (n : Nat) : Bool :=
  match x.heard with
  | some t => decide (t + n * s.params.period ≤ s.now)
  | none => false

/-- An ACTIVE entry becomes SILENT (R115). -/
def peerSilent (station : Nat) (s : State) : State :=
  let x := s.peer station
  if s.started ∧ x.state = .active ∧ s.unheardFor x 3 then s.setPeer station { x with state := .silent }
  else s

/-- An ACTIVE or SILENT entry becomes LOST (R115, R116). -/
def peerLost (station : Nat) (s : State) : State :=
  let x := s.peer station
  if s.started ∧ (x.state = .active ∨ x.state = .silent) ∧ s.unheardFor x 10 then
    raiseLink (LinkCause.addLost station)
      (forgetPeer station (s.setPeer station { x with state := .lost }))
  else s

/-! ### Site time and the tally timer (R117 to R122) -/

/-- A compartment one second on: its quiet timer, while it runs, goes up to 600 at most. -/
def Comp.tick (k : Comp) : Comp := { k with quiet := k.quiet.map (fun n => satAdd quietPeriod n 1) }

/-- The check timer one second on, in RUN and PARKED (R174). -/
def tickCheckTimer (s : State) : State :=
  if s.mode = .run ∨ s.mode = .parked then
    s.setMetrology { s.metrology with timer := s.metrology.timer.map (· - 1) }
  else s

/-- The clock rollover that site time now brings, if any (R119). -/
def clockRollover (s : State) : State :=
  let k := clockShift s.params.shiftStarts s.now
  if s.started ∧ k > s.shiftNo then rollover k s else s

/-- Site time goes up by one second (R117), and leaves no hold past its expiry (R77). -/
def siteTimeTick (s : State) : State :=
  match s.peers.siteTime with
  | none => s
  | some t =>
    let s1 := s.setPeers { s.peers with siteTime := some (count32 t) }
    let s2 := s1.setStock { s1.stock with comps := s1.stock.comps.map Comp.tick }
    clockRollover (tickCheckTimer (dropPastHolds s2))

/-- The tally timer expires (R121, R122). -/
def tallyExpired (s : State) : State :=
  if s.peers.tallyTimer then
    let n := satAdd 3 s.peers.pendingCount 1
    let s1 := s.setPeers { s.peers with warmUp := false, pendingCount := n }
    if n = 3 then startRound true s1 else linkWork [] s1
  else s

/-! ### Probes (R129 to R132) -/

/-- 30 s have passed since a site time. -/
def State.past30 (s : State) (t : Option Nat) : Bool :=
  match t with
  | some t => decide (t + 30 ≤ s.now)
  | none => false

/-- A probe passes to FAULT: the condition holds, with STOCK attention (R130). -/
def probeToFault (c : CompId) (s : State) : State :=
  raiseStock (fun x => { x with probe := x.probe.set c true })
    ((s.setComp c { s.comp c with probe := .fault, probeFault := true }).modFlags
      (fun f => { f with probeFault := f.probeFault.set c true }))

/-- The reports of a good sample (R132). -/
def probeReports (c : CompId) (k : CompParams) (level volume : Nat) (s : State) : State :=
  let s1 := if volume < k.reserve * 1000 then lowLevel c s else s
  if k.highLevel ≤ level then probeFullReport c s1 else s1

/-- One compartment's probe sampled (R129, R130). -/
def sampleProbe (c : CompId) (k : CompParams) (r : ProbeReading) (s : State) : State :=
  let x := s.comp c
  let outOfRange := if x.probe = .fault then s else probeToFault c s
  match r with
  | .level l =>
    if l ≤ 60000 then
      let v := strapped k.strapping l
      probeReports c k l v (s.setComp c { x with
        probe := .valid, probeFault := false, level := some l, volume := some v,
        lastGood := s.peers.siteTime })
    else outOfRange
  | .faulty => outOfRange
  | .missing =>
    match x.probe with
    | .unsampled => if s.past30 s.stock.startedAt then probeToFault c s else s
    | .valid => if s.past30 x.lastGood then probeToFault c s else s
    | .fault => s

/-- The probes of the present compartments sampled: each line gives its outcome (R129). -/
def sampleProbes (s : State) : State :=
  s.presentComps.foldl (fun t x => sampleProbe x.1 x.2 s.stock.probeLines[x.1] t) s

/-- The probe lines give these readings from now on. -/
def setProbeLines (readings : Vector ProbeReading 3) (s : State) : State :=
  s.setStock { s.stock with probeLines := readings }

/-- A sample of the probes: from START on they are sampled; before START none is taken, and only what the
lines give changes, for the first sample at START (R129): the model's choice (log entry 14). -/
def probeSample (readings : Vector ProbeReading 3) (s : State) : State :=
  let s1 := setProbeLines readings s
  if s1.started then sampleProbes s1 else s1

end Sys2Proof.Machine
end

