-- ==== Sys2Proof/Machine/StartUp.lean ====
section
/-! DEFINITION. Reset, the sequence of STARTING (R170), recovery of OPEN records (R171), the scan of the
ring (R149), the rebuild of book stock (R135), and START (R172). -/

namespace Sys2Proof.Machine

/-! ### Reset -/

/-- Every block at its reset state (R169, R170 step 1). Record memory, the queue of commands, the
levels of the meter and carrier lines and what the probe lines give stand. -/
def blockReset (reason : RestartReason) (s : State) : State :=
  { State.reset with
    pending := s.pending
    meters := Vector.ofFn (fun p => Channel.reset (s.meter p).pin)
    link := Link.reset s.link.carrier
    stock := Stock.reset s.stock.probeLines
    port := Port.reset reason
    rm := s.rm
    free := s.free }

/-! ### The scan of the ring (R149) -/

/-- The entry with the highest journal seq of a list of slots. -/
def highest : List (Nat × Slot) → Option (Nat × Slot)
  | [] => none
  | x :: xs =>
    match highest xs with
    | some y => if x.2.record.seq < y.2.record.seq then some y else some x
    | none => some x

/-- The slot before a position in ring order. -/
def prevPos (k : Nat) : Nat := (k + ringSize - 1) % ringSize

/-- The length of the record run that ends at a position whose record carries a journal seq (R149); the
first argument bounds it by the number of slots. -/
def runLength (slots : List (Nat × Slot)) : Nat → Nat → Nat → Nat
  | 0, _, _ => 0
  | n + 1, k, seq =>
    match slotAt slots (prevPos k) with
    | some x =>
      if x.held ∧ x.record.seq + 1 = seq then 1 + runLength slots n (prevPos k) x.record.seq else 1
    | none => 1

/-- Whether a position lies in a run of `n` slots from `oldest` on. -/
def inRun (oldest n k : Nat) : Bool := decide ((k + ringSize - oldest) % ringSize < n)

/-- The slots after the scan: a held slot outside the run is released. -/
def releaseOutside (oldest n : Nat) (slots : List (Nat × Slot)) : List (Nat × Slot) :=
  slots.map (fun x => (x.1, { x.2 with held := x.2.held && inRun oldest n x.1 }))

/-- The journal seqs that the VOID records of a run name. -/
def voidedSeqs (rs : List (Nat × Record)) : List Nat :=
  rs.filterMap (fun x => match x.2.body with
    | .void q => some q
    | _ => none)

/-- The VOIDED marks missing from the run set (R149, R156). -/
def repairVoids (s : State) : State :=
  let named := voidedSeqs s.ring
  s.ring.foldl (fun s x =>
    if named.contains x.2.seq && !x.2.voided then updateSlot x.1 (fun r => { r with voided := true }) s
    else s) s

/-- The run of the ring: the position of the oldest record and the number of records (R149). -/
def scanRun (slots : List (Nat × Slot)) : Nat × Nat :=
  match highest (slots.filter (fun x => x.2.held)) with
  | some (k, x) =>
    let n := runLength slots slots.length k x.record.seq
    ((k + ringSize + 1 - n) % ringSize, n)
  | none =>
    match highest slots with
    | some (k, _) => ((k + 1) % ringSize, 0)
    | none => (0, 0)

/-- The next journal seq found by the scan (R149). -/
def scanNextSeq (slots : List (Nat × Slot)) : Nat :=
  match highest slots with
  | some (_, x) => x.record.seq + 1
  | none => 1

/-- The scan of STARTING (R149). -/
def scanRing (s : State) : State :=
  let run := scanRun s.rm.slots
  let s1 := s.setJournal { s.journal with
    oldest := run.1, held := run.2, nextSeq := scanNextSeq s.rm.slots }
  repairVoids (s1.setRm { s1.rm with slots := releaseOutside run.1 run.2 s1.rm.slots })

/-! ### Recovery of OPEN records (R171, R66) -/

/-- The fill fields that recovery writes (R171, R66). A time closed past 4,294,967,295 is held as the whole sum:
the model's choice (log entry 21). -/
def FillRecord.recover (params : Params) (receipt : Bool) (opened : Option Nat) (f : FillRecord) :
    FillRecord :=
  let c := f.checkpoint
  let q := match productOf f.product with
    | some q => params.products[q]
    | none => ⟨0, false⟩
  let tm := meanTempOf c.w c.rpos
  let g := match params.meters[f.point] with
    | some m => grossOf c.c m.k
    | none => 0
  let n := match params.meters[f.point] with
    | some _ => netOf g (factorOf q.compensated q.alpha tm)
    | none => 0
  let cost := match params.meters[f.point] with
    | some _ => costOf n (f.price.getD 0 : Nat)
    | none => 0
  { f with
    timeClosed := opened.map (· + c.elapsed)
    gross := g
    net := n
    tm := tm
    cost := if receipt then none else some cost
    uncompensated := c.uncompensated
    backflow := c.backflow
    overrun := overrunOf n f.preset
    disputed := true
    endReason := some .interrupted }

/-- An OPEN record completed in place; its shift stands (R171). -/
def Record.recover (params : Params) (r : Record) : Record :=
  match r.body with
  | .fill receipt f => { r with body := .fill receipt (f.recover params receipt r.time), closed := true }
  | _ => r

/-- Whether a record is an OPEN DELIVERY record. -/
def Record.openDelivery (r : Record) : Bool :=
  match r.body with
  | .fill false _ => !r.closed
  | _ => false

/-- Every OPEN record of the ring recovered in ascending order of journal seq (R171). -/
def recoverRecords (s : State) : State :=
  let s1 := s.setMetrology { s.metrology with
    recovery := (s.ring.filter (fun x => x.2.openDelivery)).map (fun x => x.2.seq) }
  s.ring.foldl (fun s x =>
    if x.2.closed then s else updateSlot x.1 (Record.recover s.params) s) s1

/-! ### Book stock (R135) -/

/-- The book stock of a present compartment rebuilt; without a baseline it starts from a free value. -/
def rebuiltBook (s : State) (c : CompId) : Int :=
  bookOver c ((s.rm.baselines[c]).getD ⟨Config.unbasedStock c, 0⟩) (s.ring.map Prod.snd)

/-- The book stock of every present compartment rebuilt (R135). -/
def rebuildBooks (s : State) : State :=
  s.presentComps.foldl (fun s x => s.setComp x.1 { s.comp x.1 with book := rebuiltBook s x.1 }) s

/-! ### STARTING (R170) -/

/-- The image found in record memory, if any (R165). -/
def RecordMemory.image (m : RecordMemory) : Option (List Host.Cell) :=
  match m.selector with
  | some x => if imageValid (m.area x) then some (m.area x) else none
  | none => none

/-- Step 2: the start counter goes up by 1 and gives the epoch. -/
def countStart (s : State) : State :=
  let n := s.rm.startCounter + 1
  let s1 := s.setRm { s.rm with startCounter := n }
  s1.setMetrology { s1.metrology with epoch := n.toNat % 16 }

/-- Step 3, for an image found: its values given to the blocks that use them. -/
def takeImage (m : List Host.Cell) (s : State) : State :=
  let p := readParams m
  let s1 := { s with params := p }
  let s2 := s1.setPort { s1.port with
    pollCode := readPollCode m, wakeEnables := wakeBits (Mem.read m (opBase m + 5)) }
  let s3 := s2.setJournal { s2.journal with current := p.defaultPrices }
  s3.setMetrology { s3.metrology with startCode := some (BitVec.ofNat 32 (Mem.readBe m 6 4)) }

/-- The sequence of STARTING (R170). -/
def startSequence (s : State) : State :=
  let s1 := countStart s
  match s1.rm.image with
  | some m =>
    receiverOn ((judgeJournal (rebuildBooks (recoverRecords (scanRing (takeImage m s1))))).setMode
      .standby)
  | none => (judgeJournal (scanRing s1)).setMode .commission

/-- A reset with its reason: the blocks reset, then STARTING (R169). -/
def resetMachine (reason : RestartReason) (s : State) : State := startSequence (blockReset reason s)

/-! ### START (R172) -/

/-- The CLOSE bulletin of a recovered delivery, when its fleet number is in the roster (R90). -/
def State.recoveryClose (s : State) (r : Record) : Option BulletinBody :=
  match r.body with
  | .fill false f =>
    let fleet := f.fleet.getD 0
    if s.inRoster fleet then
      some (.closeFill fleet (s.allowance.ownTotal fleet) f.net.toNat (pointNo f.point))
    else none
  | _ => none

/-- The CLOSE bulletins of START in ascending order of journal seq (R90). -/
def State.recoveryCloses (s : State) : List BulletinBody :=
  (s.ring.filter (fun x => s.metrology.recovery.contains x.2.seq)).filterMap
    (fun x => s.recoveryClose x.2)

/-- Steps 1 and 2 of START: the shift derived, the totals rebuilt. -/
def startTotals (s : State) : State :=
  let shift := clockShift s.params.shiftStarts s.now
  let s1 := s.setPeers { s.peers with shift := some shift }
  rebuildTotals shift (rebuildOwn shift s1)

/-- Step 3 of START: the transmitter IDLE, the CLOSEs of recovery queued, the list emptied. -/
def startLink (s : State) : State :=
  let s1 := s.setLink { s.link with tx := .idle }
  let s2 := s1.recoveryCloses.foldl (fun s b => queueBulletin b s) s1
  s2.setMetrology { s2.metrology with recovery := [] }

/-- The quiet timer of every present compartment started from 0 (R138). -/
def startQuiet (s : State) : State :=
  s.presentComps.foldl (fun s x => s.setComp x.1 { s.comp x.1 with quiet := some 0 }) s

/-- Step 4 of START: probe sampling begins with the first sample, the quiet timers start, the restock
request is evaluated (R129, R138, R140). -/
def startStock (s : State) : State :=
  evaluateRestock false
    (startQuiet (sampleProbes (s.setStock { s.stock with startedAt := s.peers.siteTime })))

/-- Step 5 of START: the tally timer, warm-up, and an urgent round (R121, R122). -/
def startTallies (s : State) : State :=
  startRound true (s.setPeers { s.peers with tallyTimer := true, warmUp := true, pendingCount := 3 })

/-- Step 6 of START: the running reference, and a metrology check begins. -/
def startCheck (s : State) : State :=
  beginCheck (s.setMetrology { s.metrology with reference := s.metrology.startCode })

/-- Step 7 of START: RUN, with the meters powered and the switches looked at. -/
def startRun (s : State) : State := levelRules (powerMeters (s.setMode .run))

/-- START, all its steps (R172). -/
def startMachine (s : State) : State :=
  startRun (startCheck (startTallies (startStock (startLink (startTotals s)))))

end Sys2Proof.Machine
end

