-- ==== Sys2Proof/Machine/Reads.lean ====
section
/-! DEFINITION. The bodies of the responses to reads, item by item in the order of the rules that list
them (R192), and what each read clears (R182, R183, R184). -/

namespace Sys2Proof.Machine

/-- An item of `w` bytes present only under a condition. -/
def Item.when (w : Nat) (b : Bool) (v : Int) : Item := if b then .num w v else .none w

/-- A signed item of `w` bytes that may be none. -/
def Item.optInt (w : Nat) : Option Int → Item
  | some v => .num w v
  | Option.none => .none w

/-- The eight bytes of a tag ID, all ones when none. -/
def Item.tag : Option TagId → Item
  | some t => .num 8 t.toNat
  | Option.none => .none 8

/-! ### Details of the causes (Table 10-2) -/

/-- The three codes of a mismatch (R174, R175). -/
def codesItems : Option Codes → List Item
  | some c => [.num 4 c.stored.toNat, .num 4 c.memory.toNat, .num 4 c.working.toNat]
  | none => [.none 4, .none 4, .none 4]

/-- The detail of a POINT cause: its name, then the offered volume in 4 bytes or the reason in 1; a single
none byte where no POINT cause is pending. Table 10-2 says only that it is the latest, with the reason; what the
offer detail carries and what stands for no cause are the model's choices (log entry 23). -/
def pointDetailItems : Option PointDetail → List Item
  | some (.offer v) => [.name (.detail .offer), .num 4 v]
  | some (.refused r) => [.name (.detail .refused), .num 1 r.code]
  | some (.ended e) => [.name (.detail .ended), Item.opt 1 (e.map EndCause.code)]
  | none => [.none 1]

/-- The details of the JOURNAL cause, as flags in the order of Table 10-2, as those of STOCK and LINK are: the
model's choice (log entry 23). -/
def JournalCause.items (c : JournalCause) : List Item :=
  [Item.flag c.low, Item.flag c.full, Item.flag c.lost]

/-- The details of the STOCK cause: a set of compartments is sent as three flags, which is the model's choice
(log entry 23). -/
def StockCause.items (c : StockCause) : List Item :=
  c.probe.toList.map Item.flag ++ c.variance.toList.map Item.flag ++ [Item.flag c.turn]

/-- A list: its length, a count of 4 bytes (R192), then the items of each element in order. That a list
is preceded by its length is the model's choice (log entry 23). -/
def listItems {α : Type} (f : α → List Item) (l : List α) : List Item :=
  .num 4 l.length :: l.flatMap f

/-- The peer-lost detail of the LINK cause: the station IDs of the peers lost, in the order in which they
were lost, where Table 10-2 has a set: the model's choice (log entry 23). -/
def LinkCause.lostItems (c : LinkCause) : List Item := listItems (fun n : Nat => [.num 1 n]) c.lost

/-- The details of the LINK cause: four flags, then the peers lost (log entry 23). -/
def LinkCause.items (c : LinkCause) : List Item :=
  [Item.flag c.jammed, Item.flag c.duplicate, Item.flag c.viewFull, Item.flag c.overrun] ++ c.lostItems

/-- The detail of a pending cause (R181). -/
def Attention.detail (a : Attention) : Cause → List Item
  | .none => []
  | .halt => codesItems a.halt
  | .estop => [Item.opt 4 (a.estop.bind id)]
  | .point p => pointDetailItems a.points[p]
  | .journal => a.journal.items
  | .stock => a.stock.items
  | .link => a.link.items

/-- READ_ATTENTION: the cause of highest priority with its detail, and every pending cause (R181). With no
cause pending, NONE is sent as a name, whose byte is free, and not as all ones, and no detail follows it; the
list of causes is in the order of priority. These are the model's choices (log entries 8 and 23). -/
def attentionItems (s : State) : List Item :=
  let a := s.port.attention
  let top := a.pending.headD .none
  .name (.cause top) :: a.detail top ++ listItems (fun c => [.name (.cause c)]) a.pending

/-! ### READ_POINT (R44, R13, R67) -/

/-- The parameters of Table 2-2 in use; an UNUSED point has none (R17). For a RECEIPT point the two that
the table marks DELIVERY only (auto-confirm, pause grace) are sent as the image gives them, clamped, and
not as none (log entry 23); the meter fault limit, which R192 does not class and Table 11-6 has in 1 byte, is
sent as a count of 4 bytes (log entry 8). These are the model's choices. -/
def pointParamItems (x : PointParams) : List Item :=
  let w (n : Nat) (v : Nat) : Item := Item.when n (x.role != .unused) v
  [w 1 (x.compartment.val + 1), w 1 x.autoConfirm.toNat, w 4 x.minFill, w 4 x.defaultPreset,
   w 4 x.slowdown, w 4 x.primeTime, w 4 x.noFlowTime, w 4 x.pauseGrace, w 4 x.tagLoss,
   w 4 x.settleTime, w 4 x.faultLimit]

/-- A roster record (R14, Table 1-5). -/
def rosterItems (m : RosterRecord) : List Item :=
  [.num 2 m.fleet, Item.tag (some m.tag), .num 1 m.account, .bytes [m.products],
   Item.opt 4 m.allowance, Item.opt 4 m.tank, Item.flag m.barred]

/-- The machine of a fill context: the roster record found by lookup (Table 2-3); of a machine that a
refusal from IDENT names its fleet number and account alone (R19); else none. -/
def FillContext.machineItems (c : FillContext) : List Item :=
  match c.machine with
  | some m => rosterItems m
  | none =>
    [Item.opt 2 (c.named.map Prod.fst), .none 8, Item.opt 1 (c.named.map Prod.snd), .none 1, .none 4,
      .none 4, .none 1]

/-- The fill context as far as it exists (Table 2-3), with the refusal and end reasons. Before the stage
at which they exist, MANUAL and DISPUTED are sent as clear and not as none; the refusal reason and the end
reason that R44 lists are sent once, here in the context, and not a second time after it (log entry 23); the
journal slot number, which neither R192 nor a layout classes, is sent in 4 bytes (log entry 8). These are
the model's choices. -/
def contextItems (c : FillContext) : List Item :=
  c.machineItems ++
  [Item.tag c.tag,
   Item.flag c.manual, Item.opt 4 c.offer, Item.opt 4 c.request, Item.opt 2 c.operator,
   Item.opt 4 c.preset, Item.opt 4 c.price, Item.opt 4 c.slot, Item.opt 4 c.seq,
   Item.opt 1 (c.endReason.map EndCause.code), Item.flag c.disputed,
   Item.opt 1 (c.refusal.map RefusalReason.code)]

/-- The state of a tag line (R13, R9). -/
def lineItems (l : TagLine) : List Item :=
  [.name (.presence l.presence), Item.tag (if l.presence = .present then l.current else none),
   Item.flag l.candidate.isSome, .num 4 l.timeoutErrors, .num 4 l.checkErrors, .num 4 l.overrunErrors]

/-- The items of the channel (R67). OVERRUN is returned after the close; before it, and for a point with
no fill, the flag is sent as clear and not as none. The items are sent in every state of the point, also with no
fill open or ended, when they are what the channel holds. The temperature condition is sent as 01h when good and
00h when absent, the last band in 1 byte. These are the model's choices (log entries 23 and 8). -/
def channelItems (m : Channel) : List Item :=
  [.name (.counting m.counting), .num 4 m.live, .num 4 m.elapsed, .num 1 m.lastBand.val,
   .num 2 m.lastTemp, Item.optInt 4 m.stopTarget, Item.optInt 4 m.slowTarget, .num 4 m.faults,
   .num 8 m.c, .num 8 m.w, .num 4 m.rpos, .num 2 m.tm, .num 4 m.gross, .num 4 m.net,
   Item.flag m.uncompensated, Item.flag m.backflow, Item.flag m.overrun, Item.flag m.tempGood]

/-- READ_POINT (R44, R67), with the detail it clears at the end (R182). What the mark to go OUT_OF_SERVICE
reads in that state is the model's choice (log entry 33); so is it that the live raw count and the gross and
net volumes, which R44 and R67 both list, are sent twice, with the items of R44 and again among those of R67
(log entry 23). -/
def pointItems (s : State) (p : PointId) : List Item :=
  let x := s.point p
  let m := s.meter p
  [.num 1 (s.role p).code, .name (.pointState x.state), .name (.valve x.valve)] ++
  pointParamItems (s.pp p) ++ contextItems x.ctx ++ [Item.flag x.outMark] ++ lineItems (s.line p) ++
  [.num 4 m.live, Item.when 4 x.state.isOpen m.gross, Item.when 4 x.state.isOpen m.net] ++
  channelItems m ++ pointDetailItems s.port.attention.points[p]

/-- The POINT cause of a point cleared (R182). -/
def clearPoint (p : PointId) (s : State) : State :=
  s.modAttention (fun a => { a with points := a.points.set p none })

/-! ### READ_ACCOUNT (R164) -/

/-- READ_ACCOUNT: the totals, the shift, the figures, the prices. -/
def accountItems (s : State) (a : Fin 32) : List Item :=
  let j := s.journal
  let x := j.accounts[a]
  [.num 4 x.net, .num 4 x.cost, .num 4 x.count, Item.opt 4 s.peers.shift] ++
  j.figures.nets.toList.map (Item.num 4) ++ [.num 4 j.figures.deliveries, .num 4 j.figures.voids] ++
  j.current.toList.map (fun n : Nat => .num 4 n) ++ j.pending.toList.map (fun n : Nat => .num 4 n) ++
  [Item.flag j.hold]

/-! ### READ_STOCK (R146) -/

/-- A strapping table: its points. -/
def strapItems (t : List (Nat × Nat)) : List Item :=
  listItems (fun x => [.num 2 x.1, .num 4 x.2]) t

/-- A present compartment: its parameters and its state. Capacity, reserve and variance tolerance are sent
in litres, the unit of Table 7-1, although Chapter 11 has volumes in millilitres: the model's choice (log
entry 8). -/
def compItems (s : State) (c : CompId) (k : CompParams) : List Item :=
  let x := s.comp c
  [Item.flag true, .num 1 k.product, .num 4 k.capacity, .num 4 k.reserve, .num 2 k.ullage,
   .num 2 k.highLevel, .num 2 k.askLevel, .num 2 k.clearLevel, .num 4 k.tolerance, .num 4 k.opening] ++
  strapItems k.strapping ++
  [.num 4 x.book, Item.optInt 4 (s.rm.baselines[c].map Baseline.value),
   Item.opt 4 (s.rm.baselines[c].map Baseline.seq), .name (.probe x.probe), Item.opt 2 x.level,
   Item.opt 4 x.volume, Item.opt 4 x.lastGood, .num 2 (s.fraction (c, k)), .num 4 (s.available c),
   .num 4 (s.space c), .num 4 (x.quiet.getD 0), .num 4 x.varianceCount, Item.flag x.variance,
   Item.flag x.probeFault]

/-- A compartment. R146 lists items of present compartments; a flag says whether it is present, and for one
that is not the flag alone is sent in its place: the model's choice (log entry 23). -/
def compartmentItems (s : State) (c : CompId) : List Item :=
  match s.cp c with
  | some k => compItems s c k
  | none => [Item.flag false]

/-- The own rank in the restock queue, `none` when the own entry is not in it. -/
def State.ownRank (s : State) : Option Nat := s.stock.queue.findIdx? (fun e => e.station == s.own)

/-- READ_STOCK (R146), with the details it clears at the end (R182). The own rank is sent in 1 byte: the
model's choice (log entry 8). -/
def stockItems (s : State) : List Item :=
  let k := s.stock
  allComps.flatMap (compartmentItems s) ++
  [Item.flag k.active, .num 2 s.ownFractionNow, Item.flag k.displacedMark, .num 4 s.params.bays] ++
  listItems (fun e => [.num 1 e.station, .num 2 e.fraction, .num 4 e.refresh]) k.queue ++
  [Item.opt 1 s.ownRank, Item.flag k.turn, .num 4 k.displaced, .num 4 k.refused] ++
  s.port.attention.stock.items

/-- The STOCK cause cleared whole (R182). -/
def clearStock (s : State) : State := s.modAttention (fun a => { a with stock := .clear })

/-! ### READ_VIEW (R86) -/

/-- READ_VIEW for a machine of the roster (R86). Its own open fills are listed in the order of their
confirmation, which no rule gives; its shift allowance is sent in the roster record and again after it. These are
the model's choices (log entry 23). -/
def viewItems (s : State) (m : RosterRecord) : List Item :=
  let a := s.allowance
  let cs := a.contributions.filter (fun c => c.fleet == m.fleet)
  let hs := a.holds.filter (fun h => h.fleet == m.fleet)
  let os := a.openPresets.filter (fun o => o.fleet == m.fleet)
  rosterItems m ++
  [Item.opt 4 m.allowance, .num 4 (a.ownTotal m.fleet)] ++
  listItems (fun c => [.num 1 c.peer, .num 4 c.value]) cs ++
  listItems (fun h => [.num 1 h.peer, .num 4 h.volume, .num 4 h.expiry]) hs ++
  listItems (fun o => [.num 1 (pointNo o.point), .num 4 o.preset]) os ++
  [.num 4 s.gapDeduction, Item.flag s.peers.warmUp, Item.opt 4 (s.allowanceTerm m),
   .num 4 a.contributions.length, .num 4 a.holds.length, .num 4 a.unknownFleet,
   .num 4 a.contributionRefusals, .num 4 a.holdRefusals, .num 4 s.params.gapReserve,
   .num 4 s.params.gapCap]

/-! ### READ_PEERS (R126) -/

/-- The fields of a peer entry (Table 6-1). The parts mask is sent in 2 bytes, bit i for part i: the
model's choice (log entry 23). -/
def peerItems (x : Peer) : List Item :=
  [.name (.peer x.state), Item.opt 1 x.epoch, Item.opt 1 x.last, .num 4 x.g, .num 4 x.h,
   Item.opt 1 x.round, Item.opt 4 x.parts, .num 2 x.mask.toNat, Item.flag x.complete,
   Item.opt 4 x.heard]

/-- The round in progress, or none (Table 6-4). Once its last part is queued the next part index is sent
as the part count, which the range of Table 6-4 allows, and not as none, which Table 6-5 shows; with no round
in progress, for which R126 lists no items, the five are sent as none in their places and not left out. These are
the model's choices (log entry 23). -/
def roundItems : Option Round → List Item
  | some r => [.num 1 r.number, .num 4 r.parts, .num 1 r.next, .num 4 r.list.length, Item.flag r.urgent]
  | none => [.none 1, .none 4, .none 1, .none 4, .none 1]

/-- READ_PEERS (R126), with the peer-lost detail it clears at the end (R182). -/
def peersItems (s : State) : List Item :=
  let u := s.peers
  ((List.range 32).filter (fun i => i + 1 != s.own)).flatMap (fun i => peerItems (s.peer (i + 1))) ++
  [.num 4 u.duplicates, .num 4 u.stale, .num 4 u.epochChanges, .num 4 u.adopted,
   .num 1 s.own, .num 1 s.metrology.epoch, Item.opt 4 u.siteTime, Item.opt 4 u.shift] ++
  listItems (fun n : Nat => [.num 4 n]) s.params.shiftStarts ++
  [.num 4 s.params.period, .num 4 u.pendingCount, .num 1 u.nextRound, Item.flag u.warmUp] ++
  roundItems u.round ++ s.port.attention.link.lostItems

/-- The peer-lost detail and its station IDs removed from the LINK cause (R182). -/
def clearLost (s : State) : State :=
  s.modAttention (fun a => { a with link := { a.link with lost := [] } })

/-! ### READ_LINK (R108) -/

/-- A queued bulletin: the hold volume of an OPEN, the fleet number of a CLOSE. -/
def queuedItems (q : Queued) : List Item :=
  [.num 1 q.bulletin.body.code, .num 1 q.bulletin.seq, .num 4 q.busy, Item.flag q.urgent] ++
  match q.bulletin.body with
  | .openFill _ h _ _ => [.num 4 h]
  | .closeFill f _ _ _ => [.num 2 f]
  | _ => []

/-- The link counters in the order of Table 5-7. -/
def LinkCounters.items (k : LinkCounters) : List Item :=
  [.num 4 k.queued, .num 4 k.transmitted, .num 4 k.busy, .num 4 k.dropped, .num 4 k.displaced,
   .num 4 k.purged, .num 4 k.jam, .num 4 k.good, .num 4 k.crcErrors, .num 4 k.lengthErrors,
   .num 4 k.gapErrors, .num 4 k.formatErrors, .num 4 k.overruns, .num 4 k.duplicateId]

/-- READ_LINK (R108), with the details it clears at the end (R182). While no image has been found the
site code, own station ID and maximum fill duration are sent as 0 and not as none: the model's choice
(log entry 23). -/
def linkItems (s : State) : List Item :=
  let l := s.link
  [.name (.tx l.tx), .name (.rx l.rx), .num 1 l.nextSeq, .num 1 s.metrology.epoch] ++
  listItems queuedItems l.queue ++
  [.num 4 l.ring.length, Item.flag l.jammed, Item.flag l.duplicate, .num 2 s.params.siteCode,
   .num 1 s.own, .num 4 s.params.maxFill] ++
  l.counters.items ++ s.port.attention.link.items

/-- The LINK cause cleared whole (R182). -/
def clearLink (s : State) : State := s.modAttention (fun a => { a with link := .clear })

/-! ### READ_STATUS (R188, R175) -/

/-- The wake enables as one byte: bits 0 to 3 are P1 to P4, as in Table 11-6, and the rest 0; R188 and R192 do
not say how they are sent, so this is the model's choice (log entry 8). -/
def wakeByte (v : Vector Bool 4) : Byte := bitAt 0 v[0] ||| bitAt 1 v[1] ||| bitAt 2 v[2] ||| bitAt 3 v[3]

/-- The debounced values of the seven inputs in the order of Table 1-1. -/
def switchItems (x : Scanner) : List Item :=
  (x.points.toList.map Debounce.value ++ [x.brake.value, x.estop.value, x.cal.value]).map
    (fun v => .name (.switch v))

/-- A name that may be none: one byte (R192). -/
def Item.optName : Option Name → Item
  | some x => .name x
  | Option.none => .none 1

/-- The metrology items (R175). While no image has been found the calibration count is sent as 0 and not
as none; the time left on the check timer is sent as none where the timer does not run; in COMMISSION the
received count is sent as 0 while the load state is IDLE; outside COMMISSION, where the rule lists neither, the
load state and the received count are sent as none and not left out. These are the model's choices (log entry
23). -/
def metrologyItems (s : State) : List Item :=
  let m := s.metrology
  let commission := s.mode == .commission
  [.name (.metrology m.status), .num 4 s.params.calibrationCount,
   Item.opt 4 (m.reference.map BitVec.toNat), Item.opt 4 (m.last.bind LastCheck.time),
   Item.optName (m.last.map (fun c => .outcome c.passed)), Item.flag m.checking, Item.flag m.checkPending,
   Item.opt 4 m.timer] ++
  codesItems m.codes ++
  [.num 4 s.rm.startCounter.toNat, .num 1 m.epoch] ++
  if commission then
    [.name (.staging m.load.isSome), .num 4 ((m.load.map Load.received).getD 0)]
  else [.none 1, .none 4]

/-- READ_STATUS (R188). The details of HALT and ESTOP are sent as none while their cause is not pending, and
not left out (log entry 23); the wake reason is sent as one name, which for a switch wake takes in the number of
the point (log entry 8). These are the model's choices. -/
def statusItems (s : State) : List Item :=
  let t := s.port
  [.num 1 s.mode.code, .name (.restart t.restartReason), Item.flag t.restarted, Item.flag t.woke,
   Item.opt 4 s.peers.siteTime, Item.opt 4 s.peers.shift] ++
  switchItems s.scanner ++
  [Item.flag t.parkPending, .num 1 t.pollCode, .bytes [wakeByte t.wakeEnables],
   Item.optName (t.wakeReason.map Name.wake)] ++
  codesItems t.attention.halt ++
  [Item.opt 4 (t.attention.estop.bind id), Item.flag s.anyFault, .num 4 t.portErrors] ++
  metrologyItems s

/-- READ_STATUS clears RESTARTED, WOKE, HALT and ESTOP (R179, R182). -/
def clearStatus (s : State) : State :=
  s.setPort { s.port with
    restarted := false, woke := false
    attention := { s.port.attention with halt := none, estop := none } }

/-! ### READ_CONDITIONS and READ_FAULTS (R183, R184) -/

/-- A flag with whether its condition holds. -/
def conditionPair (flag holds : Bool) : List Item := [Item.flag flag, Item.flag holds]

/-- The pairs of the three compartments (R183). R183 has a flag for a present compartment only; for one
that is not present two none bytes are sent in the place of its pair: the model's choice (log entry 23). -/
def compPairs (s : State) (flags holds : Vector Bool 3) : List Item :=
  allComps.flatMap (fun c =>
    if (s.cp c).isSome then conditionPair flags[c] holds[c] else [.none 1, .none 1])

/-- READ_CONDITIONS: every flag with whether its condition holds (R183), the VARIANCE pairs of the three
compartments before their PROBE_FAULT pairs: the model's choice of order (log entry 23). -/
def conditionItems (s : State) : List Item :=
  let f := s.port.flags
  let n := s.conditions
  compPairs s f.variance n.variance ++ compPairs s f.probeFault n.probeFault ++
  allPoints.flatMap (fun p => conditionPair f.tempAbsent[p] n.tempAbsent[p]) ++
  conditionPair f.jammed n.jammed ++ conditionPair f.duplicate n.duplicate ++
  conditionPair f.viewFull n.viewFull ++ conditionPair f.journalLow n.journalLow ++
  conditionPair f.journalFull n.journalFull ++ conditionPair f.portError n.portError

/-- READ_CONDITIONS clears every flag whose condition no longer holds (R183). -/
def clearConditions (s : State) : State := s.modFlags (fun f => f.keepHolding s.conditions)

/-- READ_FAULTS: the marks of every point (R184), each point's set as five flags in the order in which R184
names the marks: the model's choice (log entry 23). -/
def faultItems (s : State) : List Item :=
  allPoints.flatMap (fun p => s.port.faults[p].list.map Item.flag)

/-- READ_FAULTS clears every set (R184). -/
def clearFaults (s : State) : State :=
  s.setPort { s.port with faults := Vector.replicate 4 .clear }

end Sys2Proof.Machine
end

