-- ==== Sys2Proof/Machine/Requests.lean ====
section
/-! DEFINITION. What each request of the terminal does once it is taken in its mode, with its answer
(Table 10-1; the owning rule of each stands beside it). -/

namespace Sys2Proof.Machine

/-- The answer of a request: its result code and body (R176, R192). -/
structure Answer where
  result : Result
  body : List Item
deriving DecidableEq, Repr

/-- ACCEPTED with a body. -/
def accept (body : List Item) (s : State) : State × Answer := (s, ⟨.accepted, body⟩)

/-- A refusal: nothing changes. -/
def decline (r : Result) (s : State) : State × Answer := (s, ⟨r, []⟩)

/-- INVALID with the field position in four bytes (R192). -/
def invalidAt (position : Nat) (s : State) : State × Answer := (s, ⟨.invalid, [.num 4 position]⟩)

/-- REFUSED with a refusal reason (R192). -/
def refusedFor (r : RefusalReason) (s : State) : State × Answer := (s, ⟨.refused, [.num 1 r.code]⟩)

/-- Something done at the point a request names; INVALID outside 1..4 (R192). -/
def atPoint (b : Byte) (f : PointId → State × Answer) (s : State) : State × Answer :=
  match pointOf b with
  | some p => f p
  | none => decline .invalid s

/-! ### LOAD_IMAGE (R166 to R168) -/

/-- LOAD_IMAGE BEGIN (R166). -/
def doLoadBegin (total : BitVec 16) (s : State) : State × Answer :=
  if within 64 32768 total.toNat then
    accept [] ((s.setRm (s.rm.write (.clearArea s.rm.staging))).setMetrology
      { s.metrology with load := some ⟨total.toNat, 0⟩ })
  else decline .invalid s

/-- LOAD_IMAGE DATA (R166). -/
def doLoadData (offset : BitVec 16) (bytes : List Byte) (s : State) : State × Answer :=
  match s.metrology.load with
  | none => decline .invalid s
  | some l =>
    if offset.toNat ≠ l.received ∨ l.received + bytes.length > l.total then invalidAt l.received s
    else
      accept [] ((s.setRm (s.rm.writeAll (byteWrites s.rm.staging l.received bytes))).setMetrology
        { s.metrology with load := some ⟨l.total, l.received + bytes.length⟩ })

/-- The load state returned to IDLE. -/
def endLoad (s : State) : State := s.setMetrology { s.metrology with load := none }

/-- The commit of an accepted load (R168). -/
def commitLoad (s : State) : State :=
  let old := s.rm.oldMetrology.2
  let new := s.rm.newCount
  let calibrates := s.rm.calibrates
  let s1 := endLoad (s.setRm (s.rm.writeAll s.rm.loadWrites))
  if calibrates then
    appendOrLose (.calibration old (BitVec.ofNat 32 (Mem.readBe s1.rm.inForce 6 4)) new) s1
  else s1

/-- LOAD_IMAGE END (R166 to R168), decided by the CAL value that the unit took with it (R4). -/
def doLoadEnd (cal : Option Bool) (s : State) : State × Answer :=
  match s.metrology.load with
  | none => decline .invalid s
  | some l =>
    if l.received < l.total then decline .invalid s
    else match s.rm.stagedFault with
      | some k => invalidAt k (endLoad s)
      | none =>
        if s.rm.calibrates ∧ cal ≠ some true then decline .locked (endLoad s)
        else
          let s1 := commitLoad s
          accept [.num 4 (Mem.readBe s1.rm.inForce metrologyBase 4),
            .num 4 (Mem.readBe s1.rm.inForce 6 4)] s1

/-! ### Modes and time -/

/-- COMMISSION (R169, R88). -/
def doCommission (s : State) : State × Answer := accept [] (receiverOff (s.setMode .commission))

/-- SET_TIME (R117). -/
def doSetTime (t : BitVec 32) (s : State) : State × Answer :=
  accept [] (s.setPeers { s.peers with siteTime := some t.toNat })

/-- START (R172). -/
def doStart (s : State) : State × Answer :=
  if s.peers.siteTime.isNone then decline .timeNotSet s
  else
    let s1 := startMachine s
    accept [.num 4 s1.shiftNo, .num 1 s1.metrology.epoch] s1

/-- The parameters of a PARK that are given replace those in use (R185). Bits 4 to 6 of the wake byte, to
which Table 11-9 gives no meaning, are passed over: the model's choice (log entry 36). -/
def takeParkParams (poll wake : Byte) (t : Port) : Port :=
  { t with
    pollCode := if poll = 0xFF then t.pollCode else poll.toNat
    wakeEnables := if wake.getLsbD 7 then wakeBits wake else t.wakeEnables }

/-- PARK (R185, R186). -/
def doPark (poll wake : Byte) (s : State) : State × Answer :=
  if poll ≠ 0xFF ∧ poll.toNat > 15 then decline .invalid s
  else
    let s1 := s.setPort { takeParkParams poll wake s.port with parkPending := true }
    if s.allIdle then accept [.name (.said .parked)] (takePark s1)
    else accept [.name (.said .parkPending)] s1

/-- WAKE (R187). -/
def doWake (s : State) : State × Answer :=
  if s.mode = .parked then accept [.name (.said .woken)] (wakeUp .request s)
  else if s.port.parkPending then
    accept [.name (.said .parkCancelled)] (s.setPort { s.port with parkPending := false })
  else accept [.name (.said .modeWasRun)] s

/-! ### Points -/

/-- CONFIRM (R25, R42). The requested volume is read as an unsigned number: the model's choice (log entry
34). -/
def doConfirm (point : Byte) (volume : BitVec 32) (operator : BitVec 16) (s : State) : State × Answer :=
  atPoint point (fun p =>
    if s.role p = .unused then decline .wrongRole s
    else if (s.point p).state ≠ .offered then decline .wrongState s
    else match confirmPoint p volume.toNat operator.toNat s with
      | (s1, .accepted preset seq) => accept [.num 4 preset, .num 4 seq] s1
      | (s1, .refused r) => refusedFor r s1) s

/-- MANUAL_ID (R16, R22). -/
def doManualId (point : Byte) (fleet : BitVec 16) (s : State) : State × Answer :=
  atPoint point (fun p =>
    if s.role p ≠ .delivery then decline .wrongRole s
    else if (s.point p).state ≠ .ident then decline .wrongState s
    else match identify p (s.machineByFleet fleet.toNat) none s with
      | (s1, none) => accept [] s1
      | (s1, some r) => refusedFor r s1) s

/-- STOP (R33). -/
def doStop (point : Byte) (s : State) : State × Answer :=
  atPoint point (fun p =>
    if s.role p = .unused then decline .wrongRole s
    else match (s.point p).state with
      | .priming | .flowing | .slowing | .paused => accept [] (endCause p .stopped s)
      | .ident | .offered => accept [] (refuseEvent p .stopped s)
      | .closing => accept [.name (.pointState .closing)] s
      | .idle | .ended | .refused | .outOfService => decline .wrongState s) s

/-- RESTORE (R41). -/
def doRestore (point : Byte) (s : State) : State × Answer :=
  atPoint point (fun p =>
    if s.role p = .unused then decline .wrongRole s
    else if (s.point p).state ≠ .outOfService then decline .wrongState s
    else if s.atRest p then accept [] (enterIdle p s)
    else decline .notHolstered s) s

/-! ### Prices (R162, R163) -/

/-- SET_PRICE (R162). -/
def doSetPrice (product : Byte) (price : BitVec 32) (s : State) : State × Answer :=
  match productOf product.toNat with
  | none => decline .invalid s
  | some q =>
    if price.toNat > 99999 then decline .invalid s
    else
      let j := s.journal
      let j1 := if j.hold then { j with pending := j.pending.set q price.toNat }
        else { j with current := j.current.set q price.toNat }
      accept [.num 4 (j1.current[q] : Nat), .num 4 (j1.pending[q] : Nat), Item.flag j1.hold] (s.setJournal j1)

/-- HOLD_PRICES (R163). -/
def doHoldPrices (s : State) : State × Answer :=
  let j := s.journal
  if j.hold then accept [.name (.said .holdAlreadySet)] s
  else accept [.name (.said .holdSet)] (s.setJournal { j with pending := j.current, hold := true })

/-- RELEASE_PRICES (R163). -/
def doReleasePrices (s : State) : State × Answer :=
  let j := s.journal
  if j.hold then
    accept [.name (.said .released)] (s.setJournal { j with current := j.pending, hold := false })
  else accept [.name (.said .noHoldSet)] s

/-! ### The journal -/

/-- The record of the ring with a journal seq, and its position. -/
def State.findRecord (s : State) (seq : Nat) : Option (Nat × Record) :=
  s.ring.find? (fun x => x.2.seq == seq)

/-- The fill fields of a CLOSED DELIVERY record. -/
def Record.closedDelivery (r : Record) : Option FillRecord :=
  match r.body with
  | .fill false f => if r.closed then some f else none
  | _ => none

/-- The writes of a void: the VOID record, then the mark (R156). -/
def State.voidWrites (s : State) (k : Nat) (r : Record) : List RmWrite :=
  [s.appendWrite true (.void r.seq), .slot k ⟨true, { r with voided := true }⟩]

/-- What a void takes from the totals of the record's account and adds to the figures (R156, R160). -/
def voidTotals (f : FillRecord) (j : Journal) : Journal :=
  let j1 := addToAccount (f.account.getD 0) (-f.net) (-(f.cost.getD 0)) (-1) j
  { j1 with figures := { j1.figures with voids := j1.figures.voids + 1 } }

/-- A void that passes every test, one operation (R156). -/
def voidRecord (k : Nat) (r : Record) (f : FillRecord) (s : State) : State :=
  let s1 := s.setRm (s.rm.writeAll (s.voidWrites k r))
  judgeJournal (s1.setJournal (voidTotals f
    { s1.journal with held := s1.journal.held + 1, nextSeq := s1.journal.nextSeq + 1 }))

/-- The tests of VOID in order: the refusal, or the record to void (R156). -/
def State.voidTest (s : State) (seq : Nat) : Except Result (Nat × Record × FillRecord) :=
  match s.findRecord seq with
  | none => .error .notFound
  | some (k, r) =>
    match r.closedDelivery with
    | none => .error .wrongKind
    | some f =>
      if s.peers.shift.isNone ∨ r.shift ≠ s.peers.shift then .error .wrongShift
      else if r.voided then .error .alreadyVoided
      else if ¬ s.aboveFloor then .error .journalFull
      else .ok (k, r, f)

/-- VOID (R156). -/
def doVoid (seq : BitVec 32) (s : State) : State × Answer :=
  match s.voidTest seq.toNat with
  | .error r => decline r s
  | .ok (k, r, f) => accept [.num 4 s.journal.nextSeq] (voidRecord k r f s)

/-- Whether a record matches a kind filter: 0 any, else a kind code (Table 11-9). -/
def Record.matches (filter : Nat) (r : Record) : Bool := filter == 0 || r.body.kind.code == filter

/-- The records of the ring above a cursor that match a filter (R157). -/
def State.searched (s : State) (cursor filter : Nat) : List Record :=
  (s.ring.map Prod.snd).filter (fun r => decide (r.seq > cursor) && r.matches filter)

/-- READ_JOURNAL (R157, R191, R164), with the details of the JOURNAL cause that it clears at the end
(R182). -/
def doReadJournal (mode filter count : Byte) (s : State) : State × Answer :=
  if mode.toNat > 1 ∨ filter.toNat > 6 ∨ ¬ (1 ≤ count.toNat ∧ count.toNat ≤ 4) then decline .invalid s
  else
    let cursor := if mode = 0 then 0 else s.journal.cursor
    let found := s.searched cursor filter.toNat
    let given := found.take count.toNat
    let last := match given.getLast? with
      | some r => r.seq
      | none => cursor
    let s1 := s.setJournal { s.journal with cursor := last }
    let s2 := s1.modAttention (fun a => { a with journal := .clear })
    accept (.num 1 given.length ::
      given.flatMap (fun r => [.num 1 r.image.length, .bytes r.image]) ++
      [Item.flag (decide (found.length ≤ count.toNat))] ++ s1.journalSummary ++
      s.port.attention.journal.items) s2

/-- The EXPORTED marks that EXPORT_DONE sets: from the oldest record up to the seq given, stopping at
the first OPEN record (R158). -/
def State.exportMarks (s : State) (seq : Nat) : List RmWrite :=
  ((s.ring.takeWhile (fun x => decide (x.2.seq ≤ seq) && x.2.closed)).filter
    (fun x => !x.2.exported)).map (fun x => .slot x.1 ⟨true, { x.2 with exported := true }⟩)

/-- A record is releasable (R159). -/
def State.releasable (s : State) (r : Record) : Bool :=
  r.exported &&
    match r.shift, s.peers.shift with
    | none, _ => true
    | some h, some now => decide (h < now)
    | some _, none => false

/-- The records that a release pass releases (R159). -/
def State.toRelease (s : State) : List (Nat × Record) := s.ring.takeWhile (fun x => s.releasable x.2)

/-- The write of a fold, if the record is folded (R135). -/
def foldWrites (m : RecordMemory) (r : Record) : List RmWrite :=
  match foldInto r m.baselines with
  | some (c, b) => [.baseline c b]
  | none => []

/-- The writes that release some records: the fold into a baseline before each release (R159, R135). -/
def releaseWrites : RecordMemory → List (Nat × Record) → List RmWrite
  | _, [] => []
  | m, (k, r) :: rest =>
    let ws := foldWrites m r ++ [.slot k ⟨false, r⟩]
    ws ++ releaseWrites (m.writeAll ws) rest

/-- The release pass (R159). -/
def releasePass (s : State) : State :=
  let n := s.toRelease.length
  let s1 := s.setRm (s.rm.writeAll (releaseWrites s.rm s.toRelease))
  let s2 := s1.setJournal { s1.journal with
    oldest := (s1.journal.oldest + n) % ringSize, held := s1.journal.held - n }
  if n = 0 then s else judgeJournal s2

/-- EXPORT_DONE (R158, R159). -/
def doExportDone (seq : BitVec 32) (s : State) : State × Answer :=
  let marks := s.exportMarks seq.toNat
  let s1 := s.setRm (s.rm.writeAll marks)
  let s2 := releasePass s1
  accept ([.num 4 marks.length, .num 4 s1.toRelease.length] ++ s2.journalSummary) s2

/-! ### Stock-take (R134) -/

/-- The tests of STOCKTAKE in order: the refusal, or the compartment. -/
def State.stocktakeTest (s : State) (compartment volume : Nat) : Except Result CompId :=
  match compOf compartment with
  | none => .error .invalid
  | some c =>
    match s.cp c with
    | none => .error .invalid
    | some k =>
      if volume > k.capacity * 1000 then .error .invalid
      else if s.fillOpenOn c then .error .compartmentBusy
      else if s.freeSlots = 0 then .error .journalFull
      else .ok c

/-- The writes of a stock-take: the record, then the baseline (R134). -/
def State.stocktakeWrites (s : State) (c : CompId) (volume : Nat) : List RmWrite :=
  [s.appendWrite true (.stocktake c volume), .baseline c ⟨volume, s.journal.nextSeq⟩]

/-- The record, the baseline and the book stock of a stock-take (R134). -/
def stocktakeBook (c : CompId) (volume : Nat) (s : State) : State :=
  let s1 := s.setRm (s.rm.writeAll (s.stocktakeWrites c volume))
  restartQuiet c (setBook c volume (judgeJournal (s1.setJournal
    { s1.journal with held := s1.journal.held + 1, nextSeq := s1.journal.nextSeq + 1 })))

/-- STOCKTAKE (R134, R140). -/
def doStocktake (compartment : Byte) (volume : BitVec 32) (s : State) : State × Answer :=
  match s.stocktakeTest compartment.toNat volume.toNat with
  | .error r => decline r s
  | .ok c =>
    let s1 := stocktakeBook c volume.toNat s
    accept [.num 4 s.journal.nextSeq] (if s1.started then evaluateRestock false s1 else s1)

/-! ### The link and the reads -/

/-- PURGE_LINK (R107): the bulletins purged and the ring slots freed. -/
def doPurgeLink (s : State) : State × Answer :=
  accept [.num 4 s.link.displaceable.length, .num 4 s.link.ring.length] (purgeLink s)

/-- READ_POINT (R44, R182). -/
def doReadPoint (point : Byte) (s : State) : State × Answer :=
  atPoint point (fun p => accept (pointItems s p) (clearPoint p s)) s

/-- READ_ACCOUNT (R164). -/
def doReadAccount (account : Byte) (s : State) : State × Answer :=
  match accountOf account.toNat with
  | some a => accept (accountItems s a) s
  | none => decline .invalid s

/-- READ_STOCK (R146, R182). -/
def doReadStock (s : State) : State × Answer := accept (stockItems s) (clearStock s)

/-- READ_VIEW (R86). -/
def doReadView (fleet : BitVec 16) (s : State) : State × Answer :=
  match s.machineByFleet fleet.toNat with
  | some m => accept (viewItems s m) s
  | none => decline .notFound s

/-- READ_PEERS (R126, R182). -/
def doReadPeers (s : State) : State × Answer := accept (peersItems s) (clearLost s)

/-- READ_LINK (R108, R182). -/
def doReadLink (s : State) : State × Answer := accept (linkItems s) (clearLink s)

/-- READ_STATUS (R188, R179, R182). -/
def doReadStatus (s : State) : State × Answer := accept (statusItems s) (clearStatus s)

/-- READ_ATTENTION (R181). -/
def doReadAttention (s : State) : State × Answer := accept (attentionItems s) s

/-- READ_CONDITIONS (R183). -/
def doReadConditions (s : State) : State × Answer := accept (conditionItems s) (clearConditions s)

/-- READ_FAULTS (R184). -/
def doReadFaults (s : State) : State × Answer := accept (faultItems s) (clearFaults s)

end Sys2Proof.Machine
end

