-- ==== Sys2Proof/Machine/Port.lean ====
section
/-! DEFINITION. The Terminal Port (sections 10.1 and 10.2): requests taken and gated, responses, the
exchange, and what a loss of power or a reset cuts short. -/

namespace Sys2Proof.Machine

/-! ### Requests -/

/-- A response put into the response buffer (R176). -/
def respond (code : Byte) (a : Answer) (s : State) : State :=
  s.setPort { s.port with response := ⟨code, a.result, a.body⟩, fresh := true }

/-- What a request does, with its answer. An event of the controller is no request: it does nothing
here. -/
def perform : Instr → State → State × Answer
  | .loadImageBegin total, s => doLoadBegin total s
  | .loadImageData offset bytes, s => doLoadData offset bytes s
  | .loadImageEnd, s => doLoadEnd s.metrology.cal s
  | .commission, s => doCommission s
  | .setTime t, s => doSetTime t s
  | .start, s => doStart s
  | .park poll wake, s => doPark poll wake s
  | .wake, s => doWake s
  | .confirm point volume operator, s => doConfirm point volume operator s
  | .manualId point fleet, s => doManualId point fleet s
  | .stop point, s => doStop point s
  | .restore point, s => doRestore point s
  | .setPrice product price, s => doSetPrice product price s
  | .holdPrices, s => doHoldPrices s
  | .releasePrices, s => doReleasePrices s
  | .void seq, s => doVoid seq s
  | .readJournal mode filter count, s => doReadJournal mode filter count s
  | .exportDone seq, s => doExportDone seq s
  | .stocktake compartment volume, s => doStocktake compartment volume s
  | .purgeLink, s => doPurgeLink s
  | .readPoint point, s => doReadPoint point s
  | .readAccount account, s => doReadAccount account s
  | .readStock, s => doReadStock s
  | .readView fleet, s => doReadView fleet s
  | .readPeers, s => doReadPeers s
  | .readLink, s => doReadLink s
  | .readStatus, s => doReadStatus s
  | .readAttention, s => doReadAttention s
  | .readConditions, s => doReadConditions s
  | .readFaults, s => doReadFaults s
  | _, s => decline .none s

/-- What the request in work does, with its answer: a LOAD_IMAGE END by the CAL value taken with it, not
by the value CAL has since come to (R4). -/
def performTaken : Instr → State → State × Answer
  | .loadImageEnd, s => doLoadEnd s.port.takenCal s
  | i, s => perform i s

/-- A request taken and worked to its end (R176). -/
def workRequest (i : Instr) (s : State) : State :=
  respond ((requestCode i).getD 0) (perform i s).2 (perform i s).1

/-- A well-formed request gated and taken (R178): refused with WRONG_MODE in a mode that Table 10-1 does
not give for it. While another request is in work it is discarded (R176). -/
def takeRequest (i : Instr) (s : State) : State :=
  if ¬ s.powered ∨ s.port.inWork.isSome then s
  else if takenIn i s.mode then workRequest i s
  else respond ((requestCode i).getD 0) ⟨.wrongMode, []⟩ s

/-- A malformed frame (R177): REJECT with the code received, a port error counted and flagged. The code
of a frame that was cut short before its code came in is 00h: the model's choice (log entry 36). -/
def rejectFrame (code : Byte) (s : State) : State :=
  let s1 := s.setPort { s.port with portErrors := count16 s.port.portErrors }
  respond code ⟨.reject, []⟩ (s1.modFlags (fun f => { f with portError := true }))

/-- A LOAD_IMAGE DATA that carries a number of bytes its frame does not allow is malformed (R192). -/
def takeLoadData (offset : BitVec 16) (bytes : List Byte) (s : State) : State :=
  if 1 ≤ bytes.length ∧ bytes.length ≤ 200 then takeRequest (.loadImageData offset bytes) s
  else if ¬ s.powered ∨ s.port.inWork.isSome then s
  else rejectFrame 0x01 s

/-! ### What is cut short (R148, R153, R168, R176) -/

/-- The writes that append a record at the write position, as they can be cut short (R148): first its
content over that of a released slot, in part, then the journal seq and the status together. -/
def State.appendWrites (s : State) (x : Slot) : List RmWrite :=
  let k := s.journal.writePosition
  match slotAt s.rm.slots k with
  | some old => [.content k (Config.partWritten s.free old.record x.record), .slot k x]
  | none => [.slot k x]

/-- The writes of record memory that an accepted request makes, in their order. -/
def State.requestWrites (s : State) : Instr → List RmWrite
  | .loadImageBegin _ => [.clearArea s.rm.staging]
  | .loadImageData offset bytes => byteWrites s.rm.staging offset.toNat bytes
  | .loadImageEnd =>
    let s1 := commitLoad s
    s.rm.loadWrites ++
      (if s1.journal.held = s.journal.held then []
       else match slotAt s1.rm.slots s.journal.writePosition with
         | some x => s.appendWrites x
         | none => [])
  | .exportDone seq =>
    let marks := s.exportMarks seq.toNat
    let s1 := s.setRm (s.rm.writeAll marks)
    marks ++ releaseWrites s1.rm s1.toRelease
  | .void seq =>
    match s.voidTest seq.toNat with
    | .ok (k, r, _) =>
      s.appendWrites (s.appended true (.void r.seq)) ++ (s.voidWrites k r).tail
    | .error _ => []
  | .stocktake compartment volume =>
    match s.stocktakeTest compartment.toNat volume.toNat with
    | .ok c =>
      s.appendWrites (s.appended true (.stocktake c volume.toNat)) ++
        (s.stocktakeWrites c volume.toNat).tail
    | .error _ => []
  | .confirm point volume operator =>
    match slotAt (doConfirm point volume operator s).1.rm.slots s.journal.writePosition with
    | some x => s.appendWrites x
    | none => []
  | _ => []

/-- The writes of the request in work that have landed when it is cut short: a free number of them,
from the first on, with an append's content in part overwritten before its last write (R148). -/
def cutRequest (s : State) : State :=
  match s.port.inWork with
  | some i =>
    if (performTaken i s).2.result = .accepted then
      s.setRm (s.rm.writeAll ((s.requestWrites i).take (Config.landedWrites s.free)))
    else s
  | none => s

/-- The write of a point's checkpoint cut short (R153). -/
def cutCheckpoint (p : PointId) (s : State) : State :=
  match s.journal.writing[p] with
  | some _ =>
    match Config.areaCut s.free p with
    | .before => s
    | .after => finishCheckpoint p s
    | .torn =>
      match (s.point p).ctx.slot with
      | some k => updateSlot k (Record.mapFill FillRecord.tearCheckpoint) s
      | none => s
  | none => s

/-- Whether a write of record memory is in progress. -/
def State.writesInProgress (s : State) : Bool :=
  s.port.inWork.isSome || allPoints.any (fun p => s.journal.writing[p].isSome)

/-- What record memory keeps of the writes in progress when they are cut short. -/
def cutShort (s : State) : State :=
  if s.writesInProgress then (eachPoint cutCheckpoint (cutRequest s)).bumpFree else s

/-! ### Power and reset (R169, R178) -/

/-- Power is lost: the working memory goes, record memory and the line levels stay. -/
def losePower (s : State) : State :=
  if s.powered then { blockReset .powerOn (cutShort s) with powered := false } else s

/-- Power is applied (R169, R170). -/
def applyPower (s : State) : State := resetMachine .powerOn (losePower s)

/-- The RESET request (R178): any request in work is discarded, then the effect of power-on. -/
def resetRequest (s : State) : State := if s.powered then resetMachine .request (cutShort s) else s

/-! ### The exchange (R176, R177) -/

/-- The bytes of a response frame (section 11.5). -/
def Response.bytes (status : Byte) (r : Response) : List Byte :=
  status :: r.code :: r.result.code :: be 2 (bodyBytes r.body).length ++ bodyBytes r.body

/-- The response NOT_READY: no body (R176). -/
def Response.notReady : Response := ⟨0, .notReady, []⟩

/-- The response an exchange sends (R176). -/
def State.outgoing (s : State) : Response :=
  if s.port.inWork.isSome then .notReady
  else if s.port.fresh then s.port.response
  else .none

/-- The sending half of an exchange: the status byte composed now, and a completed response sent once
(R176, R179). -/
def sendResponse (s : State) : State :=
  s.setPort { s.port with
    sent := s.outgoing.bytes s.statusByte, fresh := s.port.fresh && s.port.inWork.isSome }

/-- Requests that read or write record memory, and so stay in work after their exchange (R176). -/
def goesInWork (i : Instr) (s : State) : Bool :=
  match i with
  | .loadImageBegin _ | .loadImageData _ _ | .loadImageEnd | .readJournal _ _ _ | .exportDone _
  | .void _ | .stocktake _ _ | .start => true
  | .confirm _ _ _ => (perform i s).2.result == .accepted
  | _ => false

/-- The request received in an exchange, other than RESET (R176 to R178). Of a frame with no byte the
code received is taken as 00h: the model's choice (log entry 36). -/
def receiveRequest (frame : List Byte) (s : State) : State :=
  if s.port.inWork.isSome then s
  else match parseRequest frame with
    | none => rejectFrame (frame.getD 0 0) s
    | some i =>
      if takenIn i s.mode && goesInWork i s then
        s.setPort { s.port with inWork := some i, takenCal := s.metrology.cal }
      else takeRequest i s

/-- One exchange (R176). -/
def exchange (frame : List Byte) (s : State) : State :=
  if s.powered then
    let s1 := sendResponse s
    if parseRequest frame = some .reset then
      let s2 := resetRequest s1
      s2.setPort { s2.port with sent := s1.port.sent }
    else receiveRequest frame s1
  else s

/-- The request in work finishes (R176). -/
def requestComplete (s : State) : State :=
  match s.port.inWork with
  | some i =>
    if s.powered then
      let s1 := s.setPort { s.port with inWork := none }
      respond ((requestCode i).getD 0) (performTaken i s1).2 (performTaken i s1).1
    else s
  | none => s

end Sys2Proof.Machine
end

