-- ==== Sys2Proof/Machine/PortCommands.lean ====
section
/-! DEFINITION. The meanings of the commands of power and of the Terminal Port: one definition for each
row of the table. Each ends by bringing the outputs to what the state asks for (`drive`). -/

namespace Sys2Proof.Machine

/-- What every command answers: the next state, its outputs driven. -/
def done (s : State) : Host.Outcome State Fault Refusal := .next (drive s)

/-- POWER_ON (R169, R170). On a machine still powered it stands for a loss of power and its return. -/
def execPowerOn (s : State) : Host.Outcome State Fault Refusal := done (applyPower s)

/-- RESET (R178, R169). -/
def execReset (s : State) : Host.Outcome State Fault Refusal := done (resetRequest s)

/-- POWER_LOSS: what is being written is cut short and the working memory is lost. -/
def execPowerLoss (s : State) : Host.Outcome State Fault Refusal := done (losePower s)

/-- TERMINAL_EXCHANGE (R176 to R179). -/
def execTerminalExchange (frame : List Byte) (s : State) : Host.Outcome State Fault Refusal :=
  done (exchange frame s)

/-- REQUEST_COMPLETE (R176). -/
def execRequestComplete (s : State) : Host.Outcome State Fault Refusal := done (requestComplete s)

/-- LOAD_IMAGE_BEGIN (R166). -/
def execLoadImageBegin (total : BitVec 16) (s : State) : Host.Outcome State Fault Refusal :=
  done (takeRequest (.loadImageBegin total) s)

/-- LOAD_IMAGE_DATA (R166). -/
def execLoadImageData (offset : BitVec 16) (bytes : List Byte) (s : State) :
    Host.Outcome State Fault Refusal :=
  done (takeLoadData offset bytes s)

/-- LOAD_IMAGE_END (R167, R168). -/
def execLoadImageEnd (s : State) : Host.Outcome State Fault Refusal := done (takeRequest .loadImageEnd s)

/-- COMMISSION (R169). -/
def execCommission (s : State) : Host.Outcome State Fault Refusal := done (takeRequest .commission s)

/-- SET_TIME (R117). -/
def execSetTime (t : BitVec 32) (s : State) : Host.Outcome State Fault Refusal :=
  done (takeRequest (.setTime t) s)

/-- START (R172). -/
def execStart (s : State) : Host.Outcome State Fault Refusal := done (takeRequest .start s)

/-- PARK (R185, R186). -/
def execPark (poll wake : Byte) (s : State) : Host.Outcome State Fault Refusal :=
  done (takeRequest (.park poll wake) s)

/-- WAKE (R187). -/
def execWake (s : State) : Host.Outcome State Fault Refusal := done (takeRequest .wake s)

/-- CONFIRM (R25). -/
def execConfirm (point : Byte) (volume : BitVec 32) (operator : BitVec 16) (s : State) :
    Host.Outcome State Fault Refusal :=
  done (takeRequest (.confirm point volume operator) s)

/-- MANUAL_ID (R16). -/
def execManualId (point : Byte) (fleet : BitVec 16) (s : State) : Host.Outcome State Fault Refusal :=
  done (takeRequest (.manualId point fleet) s)

/-- STOP (R33). -/
def execStop (point : Byte) (s : State) : Host.Outcome State Fault Refusal :=
  done (takeRequest (.stop point) s)

/-- RESTORE (R41). -/
def execRestore (point : Byte) (s : State) : Host.Outcome State Fault Refusal :=
  done (takeRequest (.restore point) s)

/-- SET_PRICE (R162). -/
def execSetPrice (product : Byte) (price : BitVec 32) (s : State) : Host.Outcome State Fault Refusal :=
  done (takeRequest (.setPrice product price) s)

/-- HOLD_PRICES (R163). -/
def execHoldPrices (s : State) : Host.Outcome State Fault Refusal := done (takeRequest .holdPrices s)

/-- RELEASE_PRICES (R163). -/
def execReleasePrices (s : State) : Host.Outcome State Fault Refusal :=
  done (takeRequest .releasePrices s)

/-- VOID (R156). -/
def execVoid (seq : BitVec 32) (s : State) : Host.Outcome State Fault Refusal :=
  done (takeRequest (.void seq) s)

/-- READ_JOURNAL (R157). -/
def execReadJournal (mode filter count : Byte) (s : State) : Host.Outcome State Fault Refusal :=
  done (takeRequest (.readJournal mode filter count) s)

/-- EXPORT_DONE (R158, R159). -/
def execExportDone (seq : BitVec 32) (s : State) : Host.Outcome State Fault Refusal :=
  done (takeRequest (.exportDone seq) s)

/-- STOCKTAKE (R134). -/
def execStocktake (compartment : Byte) (volume : BitVec 32) (s : State) :
    Host.Outcome State Fault Refusal :=
  done (takeRequest (.stocktake compartment volume) s)

/-- PURGE_LINK (R107). -/
def execPurgeLink (s : State) : Host.Outcome State Fault Refusal := done (takeRequest .purgeLink s)

/-- READ_POINT (R44). -/
def execReadPoint (point : Byte) (s : State) : Host.Outcome State Fault Refusal :=
  done (takeRequest (.readPoint point) s)

/-- READ_ACCOUNT (R164). -/
def execReadAccount (account : Byte) (s : State) : Host.Outcome State Fault Refusal :=
  done (takeRequest (.readAccount account) s)

/-- READ_STOCK (R146). -/
def execReadStock (s : State) : Host.Outcome State Fault Refusal := done (takeRequest .readStock s)

/-- READ_VIEW (R86). -/
def execReadView (fleet : BitVec 16) (s : State) : Host.Outcome State Fault Refusal :=
  done (takeRequest (.readView fleet) s)

/-- READ_PEERS (R126). -/
def execReadPeers (s : State) : Host.Outcome State Fault Refusal := done (takeRequest .readPeers s)

/-- READ_LINK (R108). -/
def execReadLink (s : State) : Host.Outcome State Fault Refusal := done (takeRequest .readLink s)

/-- READ_STATUS (R188). -/
def execReadStatus (s : State) : Host.Outcome State Fault Refusal := done (takeRequest .readStatus s)

/-- READ_ATTENTION (R181). -/
def execReadAttention (s : State) : Host.Outcome State Fault Refusal :=
  done (takeRequest .readAttention s)

/-- READ_CONDITIONS (R183). -/
def execReadConditions (s : State) : Host.Outcome State Fault Refusal :=
  done (takeRequest .readConditions s)

/-- READ_FAULTS (R184). -/
def execReadFaults (s : State) : Host.Outcome State Fault Refusal := done (takeRequest .readFaults s)

end Sys2Proof.Machine
end

