-- ==== Sys2Proof/Machine/Tags.lean ====
section
/-! DEFINITION. The Tag Line Unit (section 1.2): the FIFO, the assembler, the errors and presence. -/

namespace Sys2Proof.Machine

/-- The TAG_LINE mark of a point set (R9). -/
def markTagLine (p : PointId) (s : State) : State := markFault p (fun m => { m with tagLine := true }) s

/-- A character on the line (R6, R7). -/
def tagCharacter (p : PointId) (c : Byte) (stopBit : Bool) (s : State) : State :=
  let l := s.line p
  if ¬ l.powered ∨ ¬ stopBit then s
  else if l.fifo.length ≥ 16 then
    markTagLine p (s.setLine p { l with
      fifo := [], frame := [], charTimer := false, overrunErrors := count16 l.overrunErrors })
  else s.setLine p { l with fifo := l.fifo ++ [c], charTimer := !l.frame.isEmpty }

/-- A valid frame at the presence logic (R10, R11). -/
def validFrame (p : PointId) (t : TagId) (s : State) : State :=
  let l := s.line p
  match l.presence with
  | .absent => s.setLine p { l with presence := .pending, candidate := some t, lossTimer := true }
  | .pending =>
    if l.candidate = some t then
      presentReport p t (s.setLine p { l with
        presence := .present, current := some t, candidate := none, lossTimer := true })
    else s.setLine p { l with candidate := some t, lossTimer := true }
  | .present =>
    if l.current = some t then s.setLine p { l with candidate := none, lossTimer := true }
    else if l.candidate = some t then
      changedReport p (s.setLine p { l with current := some t, candidate := none, lossTimer := true })
    else s.setLine p { l with candidate := some t, lossTimer := true }

/-- A no-tag frame at the presence logic (R10, R11). -/
def noTagFrame (p : PointId) (s : State) : State :=
  let l := s.line p
  match l.presence with
  | .absent => s
  | .pending => s.setLine p { l with presence := .absent, candidate := none, lossTimer := false }
  | .present => s.setLine p { l with candidate := none }

/-- The exclusive-OR of some bytes. -/
def xorBytes (b : List Byte) : Byte := b.foldl (· ^^^ ·) 0

/-- The tag ID that the bytes of a frame carry (Table 11-3). -/
def tagIdOf (f : List Byte) : TagId := BitVec.ofNat 64 (ofBe ((f.drop 1).take 8))

/-- A complete frame checked and handed on (R8). -/
def checkTagFrame (p : PointId) (f : List Byte) (s : State) : State :=
  if xorBytes ((f.drop 1).take 9) ≠ f.getD 10 0 then
    markTagLine p (s.setLine p { s.line p with checkErrors := count16 (s.line p).checkErrors })
  else if f.getD 9 0 = 0 then validFrame p (tagIdOf f) s
  else noTagFrame p s

/-- The assembler takes a byte from the head of the FIFO (R7). -/
def tagByteTaken (p : PointId) (s : State) : State :=
  let l := s.line p
  match l.fifo with
  | [] => s
  | b :: rest =>
    if l.frame.isEmpty then
      if b = 0xA5 then s.setLine p { l with fifo := rest, frame := [b], charTimer := true }
      else s.setLine p { l with fifo := rest }
    else if l.frame.length + 1 < 11 then s.setLine p { l with fifo := rest, frame := l.frame ++ [b] }
    else checkTagFrame p (l.frame ++ [b])
      (s.setLine p { l with fifo := rest, frame := [], charTimer := false })

/-- The inter-character timer runs out (R7). -/
def tagTimeout (p : PointId) (s : State) : State :=
  let l := s.line p
  if l.charTimer then
    markTagLine p (s.setLine p { l with
      frame := [], charTimer := false, timeoutErrors := count16 l.timeoutErrors })
  else s

/-- The tag-loss timer expires (R12). -/
def tagLossExpired (p : PointId) (s : State) : State :=
  let l := s.line p
  if l.lossTimer then
    let s1 := s.setLine p { l with
      presence := .absent, current := none, candidate := none, lossTimer := false }
    if l.presence = .present then absentReport p s1 else s1
  else s

end Sys2Proof.Machine
end

