-- ==== Sys2Proof/Machine/PointCommands.lean ====
section
/-! DEFINITION. The meanings of the commands that reach the points: switch samples, the tag lines, the
timers of a point, the meters: one definition for each row of the table. -/

namespace Sys2Proof.Machine

/-- SWITCH_SAMPLE (R1 to R4). -/
def execSwitchSample (levels : SwitchLevels) (s : State) : Host.Outcome State Fault Refusal :=
  done (switchSample levels s)

/-- TAG_CHARACTER_RECEIVED (R6). -/
def execTagCharacterReceived (p : PointId) (char : Byte) (stopBit : Bool) (s : State) :
    Host.Outcome State Fault Refusal :=
  done (tagCharacter p char stopBit s)

/-- TAG_BYTE_TAKEN (R7, R8, R10, R11). -/
def execTagByteTaken (p : PointId) (s : State) : Host.Outcome State Fault Refusal :=
  done (tagByteTaken p s)

/-- TAG_TIMEOUT_ERROR (R7). -/
def execTagTimeoutError (p : PointId) (s : State) : Host.Outcome State Fault Refusal :=
  done (tagTimeout p s)

/-- TAG_LOSS_TIMER_EXPIRY (R12). -/
def execTagLossTimerExpiry (p : PointId) (s : State) : Host.Outcome State Fault Refusal :=
  done (tagLossExpired p s)

/-- CONFIRM_WINDOW_EXPIRY (R24). -/
def execConfirmWindowExpiry (p : PointId) (s : State) : Host.Outcome State Fault Refusal :=
  done (confirmExpired p s)

/-- PRIME_TIME_EXPIRY (R27). -/
def execPrimeTimeExpiry (p : PointId) (s : State) : Host.Outcome State Fault Refusal :=
  done (primeElapsed p s)

/-- NO_FLOW_TIMER_EXPIRY (R29). -/
def execNoFlowTimerExpiry (p : PointId) (s : State) : Host.Outcome State Fault Refusal :=
  done (noFlowExpired p s)

/-- PAUSE_GRACE_EXPIRY (R31). -/
def execPauseGraceExpiry (p : PointId) (s : State) : Host.Outcome State Fault Refusal :=
  done (graceExpired p s)

/-- CLOSE_SETTLE_EXPIRY (R38, R39). -/
def execCloseSettleExpiry (p : PointId) (ms : Nat) (temp : TempReading) (s : State) :
    Host.Outcome State Fault Refusal :=
  done (settleExpired p ms temp s)

/-- CLOSE_TIMEOUT (R38, R39). -/
def execCloseTimeout (p : PointId) (ms : Nat) (temp : TempReading) (s : State) :
    Host.Outcome State Fault Refusal :=
  done (closeTimedOut p ms temp s)

/-- METER_EDGE (R47, R49, R62). -/
def execMeterEdge (p : PointId) (line : MeterLine) (s : State) : Host.Outcome State Fault Refusal :=
  done (meterEdge p line s)

/-- DOUBLE_TRANSITION (R48). -/
def execDoubleTransition (p : PointId) (s : State) : Host.Outcome State Fault Refusal :=
  done (doubleTransition p s)

/-- INTERVAL_END (R51). -/
def execIntervalEnd (p : PointId) (temp : TempReading) (s : State) : Host.Outcome State Fault Refusal :=
  done (intervalEnd p temp s)

/-- STOPPED_TEMPERATURE_SAMPLE (R53). -/
def execStoppedTemperatureSample (p : PointId) (temp : TempReading) (s : State) :
    Host.Outcome State Fault Refusal :=
  done (stoppedSample p temp s)

/-- CHECKPOINT_WRITE_COMPLETE (R153, R65). -/
def execCheckpointWriteComplete (p : PointId) (s : State) : Host.Outcome State Fault Refusal :=
  done (finishCheckpoint p s)

end Sys2Proof.Machine
end

