-- ==== Sys2Proof/Machine/SiteCommands.lean ====
section
/-! DEFINITION. The meanings of the commands of the site link, the peers, the clock, the probes, the
restock queue and the metrology check: one definition for each row of the table. -/

namespace Sys2Proof.Machine

/-- HOLD_EXPIRY (R77). -/
def execHoldExpiry (peer fleet : Nat) (s : State) : Host.Outcome State Fault Refusal :=
  done (expireHold peer fleet s)

/-- QUIET_WAIT_COMPLETE (R95, R96). -/
def execQuietWaitComplete (s : State) : Host.Outcome State Fault Refusal := done (quietComplete s)

/-- BACKOFF_END (R96). -/
def execBackoffEnd (s : State) : Host.Outcome State Fault Refusal := done (backoffComplete s)

/-- CARRIER_APPEARS (R95, R96, R100). -/
def execCarrierAppears (s : State) : Host.Outcome State Fault Refusal := done (carrierOn s)

/-- CARRIER_DROPS (R95, R100). -/
def execCarrierDrops (s : State) : Host.Outcome State Fault Refusal := done (carrierOff s)

/-- TRANSMISSION_END (R98). -/
def execTransmissionEnd (s : State) : Host.Outcome State Fault Refusal := done (transmissionComplete s)

/-- JAMMED (R100). -/
def execJammed (s : State) : Host.Outcome State Fault Refusal := done (jamDetected s)

/-- LINK_CHARACTER_RECEIVED (R101, R102). -/
def execLinkCharacterReceived (char : Byte) (stopBit : Bool) (s : State) :
    Host.Outcome State Fault Refusal :=
  done (linkCharacter char stopBit s)

/-- GAP_ERROR (R101). -/
def execGapError (s : State) : Host.Outcome State Fault Refusal := done (gapExpired s)

/-- FRAME_TAKEN (R103). -/
def execFrameTaken (s : State) : Host.Outcome State Fault Refusal := done (frameTaken s)

/-- DUPLICATE_ID_CEASES (R105). -/
def execDuplicateIdCeases (s : State) : Host.Outcome State Fault Refusal := done (duplicateCeases s)

/-- SITE_TIME_TICK (R117, R119). -/
def execSiteTimeTick (s : State) : Host.Outcome State Fault Refusal := done (siteTimeTick s)

/-- PEER_SILENT (R115). -/
def execPeerSilent (station : Nat) (s : State) : Host.Outcome State Fault Refusal :=
  done (peerSilent station s)

/-- PEER_LOST (R115, R116). -/
def execPeerLost (station : Nat) (s : State) : Host.Outcome State Fault Refusal :=
  done (peerLost station s)

/-- TALLY_TIMER_EXPIRY (R121, R122). -/
def execTallyTimerExpiry (s : State) : Host.Outcome State Fault Refusal := done (tallyExpired s)

/-- PROBE_SAMPLE (R129 to R132). -/
def execProbeSample (readings : Vector ProbeReading 3) (s : State) : Host.Outcome State Fault Refusal :=
  done (probeSample readings s)

/-- VARIANCE_CHECK (R138, R139). -/
def execVarianceCheck (c : CompId) (s : State) : Host.Outcome State Fault Refusal :=
  done (varianceDue c s)

/-- RESTOCK_ENTRY_AGEING (R144). -/
def execRestockEntryAgeing (station : Nat) (s : State) : Host.Outcome State Fault Refusal :=
  done (ageEntry station s)

/-- CHECK_TIMER_EXPIRY (R174). -/
def execCheckTimerExpiry (s : State) : Host.Outcome State Fault Refusal := done (checkTimerExpired s)

/-- METROLOGY_CHECK_COMPLETE (R173, R174). -/
def execMetrologyCheckComplete (changed : List Host.Cell) (worn : BitVec 32) (s : State) :
    Host.Outcome State Fault Refusal :=
  done (checkComplete changed worn s)

end Sys2Proof.Machine
end

