-- ==== Sys2Proof/Machine/Dispatch.lean ====
section
/-! DEFINITION. The effect of each command on everything but the queue: one arm for each row of the
table, each a call of that row's meaning. -/

namespace Sys2Proof.Machine

/-- The effect of a command. -/
def exec (i : Instr) (s : State) : Host.Outcome State Fault Refusal :=
  match i with
  | .powerOn => Sys2Proof.Machine.execPowerOn s
  | .reset => Sys2Proof.Machine.execReset s
  | .terminalExchange frame => Sys2Proof.Machine.execTerminalExchange frame s
  | .requestComplete => Sys2Proof.Machine.execRequestComplete s
  | .loadImageBegin total => Sys2Proof.Machine.execLoadImageBegin total s
  | .loadImageData offset bytes => Sys2Proof.Machine.execLoadImageData offset bytes s
  | .loadImageEnd => Sys2Proof.Machine.execLoadImageEnd s
  | .commission => Sys2Proof.Machine.execCommission s
  | .setTime time => Sys2Proof.Machine.execSetTime time s
  | .start => Sys2Proof.Machine.execStart s
  | .park poll wake => Sys2Proof.Machine.execPark poll wake s
  | .wake => Sys2Proof.Machine.execWake s
  | .confirm point volume operator => Sys2Proof.Machine.execConfirm point volume operator s
  | .manualId point fleet => Sys2Proof.Machine.execManualId point fleet s
  | .stop point => Sys2Proof.Machine.execStop point s
  | .restore point => Sys2Proof.Machine.execRestore point s
  | .setPrice product price => Sys2Proof.Machine.execSetPrice product price s
  | .holdPrices => Sys2Proof.Machine.execHoldPrices s
  | .releasePrices => Sys2Proof.Machine.execReleasePrices s
  | .void seq => Sys2Proof.Machine.execVoid seq s
  | .readJournal mode filter count => Sys2Proof.Machine.execReadJournal mode filter count s
  | .exportDone seq => Sys2Proof.Machine.execExportDone seq s
  | .stocktake compartment volume => Sys2Proof.Machine.execStocktake compartment volume s
  | .purgeLink => Sys2Proof.Machine.execPurgeLink s
  | .readPoint point => Sys2Proof.Machine.execReadPoint point s
  | .readAccount account => Sys2Proof.Machine.execReadAccount account s
  | .readStock => Sys2Proof.Machine.execReadStock s
  | .readView fleet => Sys2Proof.Machine.execReadView fleet s
  | .readPeers => Sys2Proof.Machine.execReadPeers s
  | .readLink => Sys2Proof.Machine.execReadLink s
  | .readStatus => Sys2Proof.Machine.execReadStatus s
  | .readAttention => Sys2Proof.Machine.execReadAttention s
  | .readConditions => Sys2Proof.Machine.execReadConditions s
  | .readFaults => Sys2Proof.Machine.execReadFaults s
  | .switchSample levels => Sys2Proof.Machine.execSwitchSample levels s
  | .tagCharacterReceived p char stopBit => Sys2Proof.Machine.execTagCharacterReceived p char stopBit s
  | .tagByteTaken p => Sys2Proof.Machine.execTagByteTaken p s
  | .tagTimeoutError p => Sys2Proof.Machine.execTagTimeoutError p s
  | .tagLossTimerExpiry p => Sys2Proof.Machine.execTagLossTimerExpiry p s
  | .confirmWindowExpiry p => Sys2Proof.Machine.execConfirmWindowExpiry p s
  | .primeTimeExpiry p => Sys2Proof.Machine.execPrimeTimeExpiry p s
  | .noFlowTimerExpiry p => Sys2Proof.Machine.execNoFlowTimerExpiry p s
  | .pauseGraceExpiry p => Sys2Proof.Machine.execPauseGraceExpiry p s
  | .closeSettleExpiry p ms temp => Sys2Proof.Machine.execCloseSettleExpiry p ms temp s
  | .closeTimeout p ms temp => Sys2Proof.Machine.execCloseTimeout p ms temp s
  | .meterEdge p line => Sys2Proof.Machine.execMeterEdge p line s
  | .doubleTransition p => Sys2Proof.Machine.execDoubleTransition p s
  | .intervalEnd p temp => Sys2Proof.Machine.execIntervalEnd p temp s
  | .stoppedTemperatureSample p temp => Sys2Proof.Machine.execStoppedTemperatureSample p temp s
  | .checkpointWriteComplete p => Sys2Proof.Machine.execCheckpointWriteComplete p s
  | .holdExpiry peer fleet => Sys2Proof.Machine.execHoldExpiry peer fleet s
  | .quietWaitComplete => Sys2Proof.Machine.execQuietWaitComplete s
  | .backoffEnd => Sys2Proof.Machine.execBackoffEnd s
  | .carrierAppears => Sys2Proof.Machine.execCarrierAppears s
  | .carrierDrops => Sys2Proof.Machine.execCarrierDrops s
  | .transmissionEnd => Sys2Proof.Machine.execTransmissionEnd s
  | .jammed => Sys2Proof.Machine.execJammed s
  | .linkCharacterReceived char stopBit => Sys2Proof.Machine.execLinkCharacterReceived char stopBit s
  | .gapError => Sys2Proof.Machine.execGapError s
  | .frameTaken => Sys2Proof.Machine.execFrameTaken s
  | .duplicateIdCeases => Sys2Proof.Machine.execDuplicateIdCeases s
  | .siteTimeTick => Sys2Proof.Machine.execSiteTimeTick s
  | .peerSilent station => Sys2Proof.Machine.execPeerSilent station s
  | .peerLost station => Sys2Proof.Machine.execPeerLost station s
  | .tallyTimerExpiry => Sys2Proof.Machine.execTallyTimerExpiry s
  | .probeSample readings => Sys2Proof.Machine.execProbeSample readings s
  | .varianceCheck c => Sys2Proof.Machine.execVarianceCheck c s
  | .restockEntryAgeing station => Sys2Proof.Machine.execRestockEntryAgeing station s
  | .checkTimerExpiry => Sys2Proof.Machine.execCheckTimerExpiry s
  | .metrologyCheckComplete changed worn => Sys2Proof.Machine.execMetrologyCheckComplete changed worn s
  | .powerLoss => Sys2Proof.Machine.execPowerLoss s

end Sys2Proof.Machine
end

