-- ==== Sys2Proof/WellFormed.lean ====
section
/-! DEFINITION. Which commands are well formed: an operand that a layout or a range of the manual bounds
lies within it. -/

namespace Sys2Proof

/-- A number is a station ID: 1..32 (section 6.1). -/
def stationOk (n : Nat) : Bool := decide (1 ≤ n) && decide (n ≤ 32)

/-- A number is a fleet number: 1..65535 (Table 1-5). -/
def fleetOk (n : Nat) : Bool := decide (1 ≤ n) && decide (n ≤ 65535)

/-- The length of a final interval: 0..999 ms (R50). -/
def finalMsOk (n : Nat) : Bool := decide (n ≤ 999)

/-- The number of bytes of a LOAD_IMAGE DATA: 1..200 (Table 11-9). -/
def dataOk (b : List Byte) : Bool := decide (1 ≤ b.length) && decide (b.length ≤ 200)

/-- Every address lies in an image area: below 32,768 (Table 9-1). -/
def cellsOk (c : List Host.Cell) : Bool := c.all (fun x => decide (x.1 < 32768))

/-- The conditions a command's operands meet. -/
def Instr.wellFormed : Instr → Bool
  | .loadImageData _ bytes => dataOk bytes
  | .closeSettleExpiry _ ms _ => finalMsOk ms
  | .closeTimeout _ ms _ => finalMsOk ms
  | .holdExpiry peer fleet => stationOk peer && fleetOk fleet
  | .peerSilent station => stationOk station
  | .peerLost station => stationOk station
  | .restockEntryAgeing station => stationOk station
  | .metrologyCheckComplete changed _ => cellsOk changed
  | _ => true

end Sys2Proof
end

