-- ==== Sys2Proof/Safety.lean ====
section
/-! DEFINITION. The terms in which claims are stated: which parts of the state a command leaves alone,
and the invariants of the controller. -/

namespace Sys2Proof.Machine

/-- The parts into which claims divide the state. The valve stages and the attention output are no
parts: they are outputs that every command brings to what R20 and R180 say. -/
inductive Part where
  | powered | mode | params | scanner
  | point (p : PointId) | line (p : PointId) | meter (p : PointId)
  | allowance | link | peers
  | comp (c : CompId) | restock | probing
  | ring | cursor | totals | prices | checkpoints
  | metrology
  | exchange | portErrors | restarts | park | attention | flags | faults
  | rm | free
deriving DecidableEq, Repr

/-- Two states agree on a part. -/
def Part.same (s t : State) : Part → Prop
  | .powered => t.powered = s.powered
  | .mode => t.mode = s.mode
  | .params => t.params = s.params
  | .scanner => t.scanner = s.scanner
  | .point p => { t.point p with valve := .closed } = { s.point p with valve := .closed }
  | .line p => t.line p = s.line p
  | .meter p => t.meter p = s.meter p
  | .allowance => t.allowance = s.allowance
  | .link => t.link = s.link
  | .peers => t.peers = s.peers
  | .comp c => t.comp c = s.comp c
  | .restock => t.stock.queue = s.stock.queue ∧ t.stock.active = s.stock.active ∧
      t.stock.displacedMark = s.stock.displacedMark ∧ t.stock.ownFraction = s.stock.ownFraction ∧
      t.stock.displaced = s.stock.displaced ∧ t.stock.refused = s.stock.refused ∧
      t.stock.turn = s.stock.turn
  | .probing => t.stock.startedAt = s.stock.startedAt ∧ t.stock.probeLines = s.stock.probeLines
  | .ring => t.journal.oldest = s.journal.oldest ∧ t.journal.held = s.journal.held ∧
      t.journal.nextSeq = s.journal.nextSeq ∧ t.journal.setAside = s.journal.setAside ∧
      t.journal.lost = s.journal.lost ∧ t.journal.low = s.journal.low ∧ t.journal.full = s.journal.full
  | .cursor => t.journal.cursor = s.journal.cursor
  | .totals => t.journal.accounts = s.journal.accounts ∧ t.journal.figures = s.journal.figures
  | .prices => t.journal.current = s.journal.current ∧ t.journal.pending = s.journal.pending ∧
      t.journal.hold = s.journal.hold
  | .checkpoints => t.journal.writing = s.journal.writing ∧ t.journal.waiting = s.journal.waiting
  | .metrology => t.metrology = s.metrology
  | .exchange => t.port.response = s.port.response ∧ t.port.fresh = s.port.fresh ∧
      t.port.inWork = s.port.inWork ∧ t.port.takenCal = s.port.takenCal ∧ t.port.sent = s.port.sent
  | .portErrors => t.port.portErrors = s.port.portErrors
  | .restarts => t.port.restartReason = s.port.restartReason ∧ t.port.restarted = s.port.restarted ∧
      t.port.woke = s.port.woke ∧ t.port.wakeReason = s.port.wakeReason
  | .park => t.port.pollCode = s.port.pollCode ∧ t.port.wakeEnables = s.port.wakeEnables ∧
      t.port.parkPending = s.port.parkPending
  | .attention => t.port.attention = s.port.attention
  | .flags => t.port.flags = s.port.flags
  | .faults => t.port.faults = s.port.faults
  | .rm => t.rm = s.rm
  | .free => t.free = s.free

/-- Nothing changes but the parts listed; the queue of commands never does. -/
def onlyChanges (parts : List Part) (s t : State) : Prop :=
  t.pending = s.pending ∧ ∀ x : Part, x ∉ parts → x.same s t

/-! ### Invariants -/

/-- Every valve is driven as R20 says: the stage its state asks for while the mode is RUN, ESTOP is
released, the park brake is applied (on delivery points) and the metrology status is good; closed
otherwise. -/
def ValvesDriven (s : State) : Prop :=
  ∀ p : PointId, (s.point p).valve =
    if s.mode = .run ∧ s.scanner.estop.value = some false ∧
        (s.role p = .delivery → s.scanner.brake.value = some true) ∧ s.metrology.status = .good then
      match (s.point p).state with
      | .priming => .slow
      | .slowing => .slow
      | .flowing => .full
      | _ => .closed
    else .closed

/-- The attention output is asserted exactly while a cause is pending (R180). -/
def AttentionShown (s : State) : Prop := s.port.attentionOut = s.port.attention.isPending

/-- The collections with a stated capacity hold no more than it (R72, R75, R93, R102, R141); the journal
lies in a ring of 4,096 slots (section 8.1), and the machines with an own total are listed by ascending
fleet number. -/
structure Bounded (s : State) : Prop where
  queue : s.link.queue.length ≤ 8
  ring : s.link.ring.length ≤ 8
  contributions : s.allowance.contributions.length ≤ 512
  holds : s.allowance.holds.length ≤ 32
  restock : s.stock.queue.length ≤ 16
  slots : ∀ (k : Nat) (x : Slot), slotAt s.rm.slots k = some x → k < 4096
  oldest : s.journal.oldest < 4096
  held : s.journal.held ≤ 4096
  own : (s.allowance.own.map Prod.fst).Pairwise (· < ·)

/-- The requests that can be in work: those that read or write record memory (R176). -/
def mayBeInWork : Instr → Bool
  | .loadImageBegin _ | .loadImageData _ _ | .loadImageEnd | .readJournal _ _ _ | .exportDone _
  | .void _ | .stocktake _ _ | .start | .confirm _ _ _ => true
  | _ => false

/-- Only a request that reads or writes record memory is in work, START only in STANDBY (R176, Table
10-1); a metrology check is in progress only in RUN and PARKED (R173). -/
def WorkFits (s : State) : Prop :=
  (∀ i : Instr, s.port.inWork = some i → mayBeInWork i = true ∧ (i = .start → s.mode = .standby)) ∧
    (s.metrology.checking = true → s.mode = .run ∨ s.mode = .parked)

/-- The command brings the machine through a reset: power, RESET, or an exchange that carries a RESET
frame (R169, R178). -/
def resetsMachine : Instr → Bool
  | .powerOn | .reset | .powerLoss => true
  | .terminalExchange frame => parseRequest frame == some .reset
  | _ => false

/-- A request of the terminal other than RESET. -/
def isRequest (i : Instr) : Bool := (requestCode i).isSome && i != .reset

/-- The controller is ready to take a request: powered, with none in work (R176). -/
def State.ready (s : State) : Prop := s.powered = true ∧ s.port.inWork = none

/-- The response buffer holds a new response: that of a request with a code, a result and a body. -/
def answered (t : State) (code : Byte) (r : Result) (body : List Item) : Prop :=
  t.port.response = ⟨code, r, body⟩ ∧ t.port.fresh = true

/-- The parts of every point, of every tag line, of every channel, of every compartment. -/
def everyPoint : List Part := allPoints.map Part.point
/-- The parts of every tag line. -/
def everyLine : List Part := allPoints.map Part.line
/-- The parts of every channel. -/
def everyMeter : List Part := allPoints.map Part.meter
/-- The parts of every compartment. -/
def everyComp : List Part := allComps.map Part.comp

/-- The nozzle of a point is up, or its coupling closed, or its switch unsettled: a refusal or the end
of a fill leaves the point waiting (R40). -/
def State.waits (s : State) (p : PointId) : Prop := s.switchAt p ≠ some false

/-- A point is REFUSED with a reason, its context otherwise empty, and raises its POINT cause (R19, R44). -/
def State.refusedWith (t : State) (p : PointId) (r : RefusalReason) : Prop :=
  (t.point p).state = .refused ∧ (t.point p).ctx = { FillContext.empty with refusal := some r } ∧
    t.port.attention.points[p] = some (.refused r)

/-- A lift reaches an IDLE delivery point in a mode: REFUSED with the first of HALTED, ESTOP, BRAKE and
PARK_PENDING that holds, else IDENT with its tag line powered (R21, R5). -/
def LiftTaken (m : Mode) (p : PointId) (s t : State) : Prop :=
  if m = .halted then t.refusedWith p .halted
  else if s.scanner.estop.value ≠ some false then t.refusedWith p .estop
  else if s.scanner.brake.value ≠ some true then t.refusedWith p .brake
  else if s.port.parkPending = true then t.refusedWith p .parkPending
  else (t.point p).state = .ident ∧ (t.point p).ctx = FillContext.empty ∧
    (t.point p).timers = PointTimers.stopped ∧ (t.line p).powered = true

/-- A coupling closure reaches an IDLE receipt point in a mode, `full` being whether the probe shows its
compartment full: REFUSED with the first reason of R42 that holds, else OFFERED with the least of the space
and 20,000,000 mL (R42). -/
def ClosureTaken (m : Mode) (p : PointId) (full : Bool) (s t : State) : Prop :=
  let offer := min (s.space (s.compartmentOf p)) 20000000
  if m = .halted then t.refusedWith p .halted
  else if s.scanner.estop.value ≠ some false then t.refusedWith p .estop
  else if s.port.parkPending = true then t.refusedWith p .parkPending
  else if s.receiptOpen (s.compartmentOf p) = true then t.refusedWith p .compartmentBusy
  else if s.freeSlots ≤ 4 then t.refusedWith p .journalFull
  else if full = true then t.refusedWith p .full
  else if offer < (s.pp p).minFill then t.refusedWith p .noSpace
  else (t.point p).state = .offered ∧
    (t.point p).ctx = { FillContext.empty with offer := some offer } ∧
    (t.point p).timers = { PointTimers.stopped with confirm := true } ∧
    t.port.attention.points[p] = some (.offer offer)

/-- The first check of an offer or a confirm that a delivery fails, with the reason of the limiting term
in the order of R83; none when every check passes (R23, R25, R83). -/
def State.firstRefusal (s : State) (p : PointId) (m : RosterRecord) (request : Nat) :
    Option RefusalReason :=
  if s.receiptOpen (s.compartmentOf p) = true then some .compartmentBusy
  else if s.freeSlots ≤ 4 then some .journalFull
  else if (s.pp p).minFill ≤ s.presetOf p m request then none
  else if m.allowance.any (fun a => decide (s.remaining m.fleet a < (s.pp p).minFill)) then
    some .noAllowance
  else if m.tank.any (fun v => decide (v < (s.pp p).minFill)) then some .tankCapacity
  else some .noStock

/-- The first check of a confirm that a receipt fails; none when every check passes (R42). -/
def State.firstReceiptRefusal (s : State) (p : PointId) (request : Nat) : Option RefusalReason :=
  if s.receiptOpen (s.compartmentOf p) = true then some .compartmentBusy
  else if s.freeSlots ≤ 4 then some .journalFull
  else if s.probeFull (s.compartmentOf p) = true then some .full
  else if min (min request (s.space (s.compartmentOf p))) 20000000 < (s.pp p).minFill then some .noSpace
  else none

/-- The CLOSED DELIVERY records of the ring that carry a shift, oldest first (R69, R161). -/
def State.deliveriesOf (s : State) (shift : Nat) : List (Record × FillRecord) :=
  (s.ring.map Prod.snd).filterMap (fun r =>
    match r.body with
    | .fill false f => if r.closed = true ∧ r.shift = some shift then some (r, f) else none
    | _ => none)

/-- What one sample of a present compartment's probe does: a good one makes the probe VALID with its level,
its strapped volume and its time; one out of range makes it FAULT, with the flag and STOCK attention at the
passage; so does a missing one 30 s after START (`since`) while UNSAMPLED, or 30 s after the last good
sample while VALID (R129, R130, R131). -/
def SampleTaken (c : CompId) (k : CompParams) (r : ProbeReading) (since : Option Nat) (s t : State) :
    Prop :=
  let late (start : Option Nat) : Prop := ∃ x : Nat, start = some x ∧ x + 30 ≤ s.now
  let faults : Prop := (t.comp c).probe = .fault ∧ (t.comp c).probeFault = true ∧
    t.port.flags.probeFault[c] = true ∧ t.port.attention.stock.probe[c] = true
  (∀ l : Nat, r = .level l → l ≤ 60000 →
    (t.comp c).probe = .valid ∧ (t.comp c).level = some l ∧
      (t.comp c).volume = some (strapped k.strapping l) ∧
      (t.comp c).lastGood = s.peers.siteTime ∧ (t.comp c).probeFault = false) ∧
  ((r = .faulty ∨ ∃ l, r = .level l ∧ 60000 < l) →
    (t.comp c).probe = .fault ∧ (t.comp c).level = (s.comp c).level ∧
      (t.comp c).volume = (s.comp c).volume ∧ ((s.comp c).probe ≠ .fault → faults)) ∧
  (r = .missing →
    (t.comp c).level = (s.comp c).level ∧ (t.comp c).volume = (s.comp c).volume ∧
      (t.comp c).lastGood = (s.comp c).lastGood ∧
      (let passes := ((s.comp c).probe = .unsampled ∧ late since) ∨
         ((s.comp c).probe = .valid ∧ late (s.comp c).lastGood)
       (passes → faults) ∧
       (¬ passes → (t.comp c).probe = (s.comp c).probe ∧
         (t.comp c).probeFault = (s.comp c).probeFault)))

/-- A point is CLOSING with an end reason, its two closing timers running (R32). -/
def State.closingWith (t : State) (p : PointId) (e : EndCause) : Prop :=
  (t.point p).state = .closing ∧ (t.point p).ctx.endReason = some e ∧
    (t.point p).timers = { PointTimers.stopped with settle := true, closeTimeout := true }

/-- `T` is the target of a net goal: the least live count at or above `r` at which the corrected count,
from `c` on and with the factor `f` of one band, gives a net volume that reaches the goal, with the
compensation factor `F` and the K-factor `k` (R60, R55, R58). -/
def IsTarget (goal c r F f k T : Int) : Prop :=
  r ≤ T ∧ ∀ x : Int, r ≤ x →
    (T ≤ x ↔ goal ≤ (10 * (c + (x - r) * (10000 + f)) / k * F + 500000) / 1000000)

/-- The values an interval of `d` ms gives a channel: the band of its rate, its temperature, the
accumulators, the volumes and the flags, from the point's metering values and the product's compensation
(R51 to R58, steps 1 to 5 of R51). That the elapsed intervals stop at 4,294,967,295 is the model's choice (log
entry 21). -/
structure EndsInterval (mp : MeterParams) (q : ProductParams) (d : Nat) (reading : TempReading)
    (m m' : Channel) : Prop where
  band : m'.lastBand = (let r := if d = 0 then 0 else m.interval.natAbs * 1000 / d
    if r < mp.t1 then 0 else if r < mp.t2 then 1 else if r < mp.t3 then 2 else 3)
  temp : m'.lastTemp = (match reading with
    | .tenths x => max (-400) (min 600 x)
    | .absent => 150)
  c : m'.c = max 0 (m.c + m.interval * (10000 + mp.f[m'.lastBand]))
  w : m'.w = m.w + max m.interval 0 * m'.lastTemp
  rpos : m'.rpos = m.rpos + max m.interval 0
  tm : m'.tm = (if m'.rpos > 0 then (2 * m'.w + m'.rpos) / (2 * m'.rpos) else 150)
  gross : m'.gross = 10 * m'.c / mp.k
  net : m'.net = (m'.gross * (if q.compensated then 1000000 - q.alpha * (m'.tm - 150) else 1000000) +
    500000) / 1000000
  interval : m'.interval = 0
  live : m'.live = m.live
  elapsed : m'.elapsed = min 4294967295 (m.elapsed + 1)
  uncompensated : m'.uncompensated = (m.uncompensated || decide (reading = .absent))
  backflow : m'.backflow =
    (m.backflow || decide (m.c + m.interval * (10000 + mp.f[m'.lastBand]) < 0))

/-- A complete tag frame with a good check byte ends with a byte, the last of the FIFO (R7, R8). -/
def State.completesTagFrame (s : State) (p : PointId) (b : Byte) : Prop :=
  (s.line p).fifo = [b] ∧ ((s.line p).frame ++ [b]).length = 11 ∧
    xorBytes ((((s.line p).frame ++ [b]).drop 1).take 9) = ((s.line p).frame ++ [b]).getD 10 0

/-- A valid tag frame, one with status 00h, ends with a byte and carries a tag ID (R8, Table 11-3). -/
def State.endsTagFrame (s : State) (p : PointId) (b : Byte) (id : TagId) : Prop :=
  s.completesTagFrame p b ∧ ((s.line p).frame ++ [b]).getD 9 0 = 0 ∧
    id = BitVec.ofNat 64 (ofBe ((((s.line p).frame ++ [b]).drop 1).take 8))

/-- A no-tag frame, one with any other status, ends with a byte (R8). -/
def State.endsNoTagFrame (s : State) (p : PointId) (b : Byte) : Prop :=
  s.completesTagFrame p b ∧ ((s.line p).frame ++ [b]).getD 9 0 ≠ 0

/-- A frame ends with a status: the receiver returns to HUNT, and the frame takes the next slot of the
ring or, at a full ring, is dropped with a count and LINK attention (R101, R102). -/
def FrameEnded (s t : State) (x : RingSlot) : Prop :=
  if s.link.ring.length < 8 then
    t.link = { s.link with rx := .hunt, frame := [], lastAA := false, ring := s.link.ring ++ [x] } ∧
      onlyChanges [.link] s t
  else
    t.link = { s.link with
      rx := .hunt, frame := [], lastAA := false
      counters := { s.link.counters with overruns := min 4294967295 (s.link.counters.overruns + 1) } } ∧
      t.port.attention.link.overrun = true ∧ onlyChanges [.link, .attention] s t

/-- A frame, its header and body, passes the format check (R104, Tables 11-1 and 11-2): a sender of 1..32,
one of the five kinds, the body length of its kind, and a part count of a TALLY of 1..14 with the index
below it. -/
def wellFormedFrame (f : List Byte) : Prop :=
  let n := f.length - 10
  1 ≤ (f.getD 2 0).toNat ∧ (f.getD 2 0).toNat ≤ 32 ∧
    match (f.getD 3 0).toNat % 16 with
    | 1 => n = 9
    | 2 => n = 11
    | 3 => (∃ e : Nat, e ≤ 39 ∧ n = 6 + 6 * e) ∧ 1 ≤ (f.getD 12 0).toNat ∧
        (f.getD 12 0).toNat ≤ 14 ∧ (f.getD 11 0).toNat < (f.getD 12 0).toNat
    | 4 => n = 2
    | 5 => n = 0
    | _ => False

/-- A bulletin that fits the layouts of Tables 11-1 and 11-2 and passes the format check (R104). -/
def Bulletin.fits (b : Bulletin) : Prop :=
  b.siteCode < 65536 ∧ 1 ≤ b.station ∧ b.station ≤ 32 ∧ b.epoch < 16 ∧ b.seq < 256 ∧
    b.shift < 4294967296 ∧
    match b.body with
    | .openFill f h l p => f < 65536 ∧ h < 4294967296 ∧ l < 65536 ∧ p < 256
    | .closeFill f c n p => f < 65536 ∧ c < 4294967296 ∧ n < 4294967296 ∧ p < 256
    | .tally r i n fr es => r < 256 ∧ i < n ∧ 1 ≤ n ∧ n ≤ 14 ∧ es.length ≤ 39 ∧
        (∀ x, fr = some x → x < 65535) ∧ ∀ e ∈ es, e.1 < 65536 ∧ e.2 < 4294967296
    | .bayAsk f => f < 65536
    | .bayDone => True

/-- The oldest frame of the ring carries a bulletin of another station of the own site, in a mode in
which bulletins are taken (R103 to R106). -/
def State.hears (s : State) (b : Bulletin) (rest : List RingSlot) : Prop :=
  b.fits ∧ s.link.ring = ⟨.good, b.encode⟩ :: rest ∧ s.started = true ∧
    b.siteCode = s.params.siteCode ∧ b.station ≠ s.params.stationId

/-- The sender of a bulletin is ACTIVE or SILENT under the bulletin's epoch, with a last sequence number
(R111, R112). -/
def State.follows (s : State) (b : Bulletin) (last : Nat) : Prop :=
  ((s.peer b.station).state = .active ∨ (s.peer b.station).state = .silent) ∧
    (s.peer b.station).epoch = some b.epoch ∧ (s.peer b.station).last = some last ∧ last < 256

/-- The distance of a bulletin from the last sequence number of its sender (R112). -/
def Bulletin.distance (b : Bulletin) (last : Nat) : Nat := (b.seq + 256 - last) % 256

/-- The entry of the sender of an accepted bulletin at a distance: heard now, its last sequence number
replaced, the numbers passed over added to both gap counts (R112). -/
def State.accepted (s : State) (b : Bulletin) (d : Nat) : Peer :=
  let x := s.peer b.station
  { x with
    state := .active, heard := some s.now, last := some b.seq
    g := min 15 (x.g + (d - 1)), h := min 15 (x.h + (d - 1)) }

/-- The sender of a bulletin is UNKNOWN, LOST or under another epoch, so that its entry starts afresh
(R111). -/
def State.meetsAfresh (s : State) (b : Bulletin) : Prop :=
  (s.peer b.station).state = .unknown ∨ (s.peer b.station).state = .lost ∨
    (s.peer b.station).epoch ≠ some b.epoch

/-- The sender of a bulletin is ACTIVE or SILENT (R111). -/
def State.knows (s : State) (b : Bulletin) : Prop :=
  (s.peer b.station).state = .active ∨ (s.peer b.station).state = .silent

/-- A bulletin is accepted with the entry `x` of its sender and the view `a`, as they stand before its content
is handed on: of a sender that it follows within the distance the entry is brought up to it and the view stands
(R112); one that starts afresh begins with gap counts 15 and 0 and, when it was ACTIVE or SILENT, loses its
holds (R111). -/
def State.accepts (s : State) (b : Bulletin) (x : Peer) (a : Allowance) : Prop :=
  (∃ last : Nat, s.follows b last ∧ 1 ≤ b.distance last ∧ b.distance last ≤ 127 ∧
      x = s.accepted b (b.distance last) ∧ a = s.allowance) ∨
    (s.meetsAfresh b ∧
      x = ⟨.active, some b.epoch, some b.seq, 15, 0, none, none, 0, false, some s.now⟩ ∧
      (s.knows b → a = { s.allowance with
        holds := s.allowance.holds.filter (fun h => decide (h.peer ≠ b.station)) }) ∧
      (¬ s.knows b → a = s.allowance))

/-- The change of epoch is counted when a sender that was ACTIVE or SILENT starts afresh, and only then
(R111). -/
def EpochChangeCounted (b : Bulletin) (s t : State) : Prop :=
  (s.meetsAfresh b ∧ s.knows b → t.peers.epochChanges = min 65535 (s.peers.epochChanges + 1)) ∧
    (¬ (s.meetsAfresh b ∧ s.knows b) → t.peers.epochChanges = s.peers.epochChanges)

/-- The restock entry of a sender that was ACTIVE or SILENT and starts afresh goes; in every other case the
restock queue and the STOCK cause stand (R111). -/
def RestockForgotten (b : Bulletin) (s t : State) : Prop :=
  (s.meetsAfresh b ∧ s.knows b → (∀ z ∈ t.stock.queue, z.station ≠ b.station) ∧
    (s.stock.active = false → ∀ z : RestockEntry,
      z ∈ t.stock.queue ↔ z ∈ s.stock.queue ∧ z.station ≠ b.station)) ∧
  (¬ (s.meetsAfresh b ∧ s.knows b) → Part.restock.same s t ∧
    t.port.attention.stock = s.port.attention.stock)

/-! ### Parking and the levels of the switches -/

/-- A point enters IDLE and the park follows: pending in RUN with every other point IDLE, it takes effect;
else the mode and the mark stand. The poll code and the wake enables stand either way (R185, R186). -/
def ParkFollows (p : PointId) (s t : State) : Prop :=
  t.port.pollCode = s.port.pollCode ∧ t.port.wakeEnables = s.port.wakeEnables ∧
    if s.port.parkPending = true ∧ s.mode = .run ∧ (∀ x : PointId, x ≠ p → (s.point x).state = .idle) then
      t.mode = .parked ∧ t.port.parkPending = false
    else t.mode = s.mode ∧ t.port.parkPending = s.port.parkPending

/-- The mode and the park state stand. -/
def ParkStands (s t : State) : Prop := t.mode = s.mode ∧ Part.park.same s t

/-- As the mode enters RUN, an IDLE point whose switch shows a lift or a coupling closure takes it (R21,
R42). -/
def LevelsTaken (s t : State) : Prop :=
  ∀ p : PointId, (s.point p).state = .idle → t.switchAt p = some true →
    (s.role p = .delivery → LiftTaken .run p s t) ∧
    (s.role p = .receipt → ClosureTaken .run p (t.probeFull (s.compartmentOf p)) s t)

/-- Every other point stands as the mode enters RUN. -/
def OthersStand (s t : State) : Prop :=
  ∀ p : PointId, (s.point p).state ≠ .idle ∨ t.switchAt p ≠ some true ∨ s.role p = .unused →
    (Part.point p).same s t ∧ t.line p = s.line p

/-! ### The own restock request (R140 to R145) -/

/-- The fraction of a compartment: its book stock in mL by its capacity in litres, truncated, within
0..1,000 (R140). -/
def State.fractionAt (s : State) (c : CompId) (k : CompParams) : Nat :=
  min 1000 ((s.comp c).book.toNat / k.capacity)

/-- `f` is the least fraction among the present compartments (R140). -/
def State.ownFractionIs (s : State) (f : Nat) : Prop :=
  (∀ (c : CompId) (k : CompParams), s.cp c = some k → f ≤ s.fractionAt c k) ∧
    if ∃ c : CompId, (s.cp c).isSome = true then
      ∃ (c : CompId) (k : CompParams), s.cp c = some k ∧ f = s.fractionAt c k
    else f = 1000

/-- An entry ranks above another: a lower fraction, or an equal one and a lower station ID (R141). -/
def RestockEntry.ranksAbove (x y : RestockEntry) : Prop :=
  x.fraction < y.fraction ∨ (x.fraction = y.fraction ∧ x.station < y.station)

/-- The own entry stands in the restock queue at a position below the depot bay count (R145). -/
def State.ownComesUp (s : State) : Prop :=
  ∃ (i : Nat) (x : RestockEntry), i < s.params.bays ∧ s.stock.queue[i]? = some x ∧
    x.station = s.params.stationId

/-- Turn is reckoned anew, with the turn detail of STOCK attention on its passage to holding (R145). -/
def TurnReckoned (s t : State) : Prop :=
  (t.stock.turn = true ↔ t.ownComesUp) ∧
    t.port.attention.stock = { s.port.attention.stock with
      turn := s.port.attention.stock.turn || (t.stock.turn && !s.stock.turn) }

/-- Turn and the STOCK cause stand. -/
def TurnStands (s t : State) : Prop :=
  t.stock.turn = s.stock.turn ∧ t.port.attention.stock = s.port.attention.stock

/-- The own entry is offered to the queue with a fraction: it enters while there is room, else it displaces
the last entry if it ranks above it, or is refused; the mark says whether it is out of the queue (R141,
R143). -/
def OwnOffered (f : Nat) (s t : State) : Prop :=
  let e : RestockEntry := ⟨s.params.stationId, f, s.now⟩
  (if s.stock.queue.length < 16 then
      (∀ x : RestockEntry, x ∈ t.stock.queue ↔ x = e ∨ x ∈ s.stock.queue) ∧
        t.stock.displaced = s.stock.displaced ∧ t.stock.refused = s.stock.refused
    else ∃ z : RestockEntry, s.stock.queue.getLast? = some z ∧
      (e.ranksAbove z →
        (∀ x : RestockEntry, x ∈ t.stock.queue ↔ x = e ∨ x ∈ s.stock.queue.dropLast) ∧
          t.stock.displaced = min 65535 (s.stock.displaced + 1) ∧
          t.stock.refused = s.stock.refused) ∧
      (¬ e.ranksAbove z →
        t.stock.queue = s.stock.queue ∧ t.stock.displaced = s.stock.displaced ∧
          t.stock.refused = min 65535 (s.stock.refused + 1))) ∧
    (t.stock.displacedMark = true ↔ ∀ x ∈ t.stock.queue, x.station ≠ s.params.stationId) ∧
    TurnReckoned s t

/-- A restock bulletin with a sequence number is queued, where no round is in progress and the queue has
room (R92, R140). -/
def RestockQueued (body : BulletinBody) (seq : Nat) (s t : State) : Prop :=
  s.peers.round = none → s.link.queue.length ≤ 6 → ∃ x ∈ t.link.queue, x.urgent = false ∧
    x.bulletin =
      ⟨s.params.siteCode, s.params.stationId, s.metrology.epoch, seq, s.shiftNo, body⟩

/-- The own restock request is evaluated with the own fraction `f`, `receipt` saying whether the evaluation
follows the close of a receipt, and `seq` being the sequence number a bulletin of it takes (R140, R141,
R143, R145). -/
def RestockEvaluated (receipt : Bool) (f seq : Nat) (s t : State) : Prop :=
  let own : Nat := s.params.stationId
  let asks : Prop := ∃ (c : CompId) (k : CompParams), t.cp c = some k ∧ t.fractionAt c k ≤ k.askLevel
  let clears : Prop := ∀ (c : CompId) (k : CompParams), t.cp c = some k → k.clearLevel ≤ t.fractionAt c k
  let present : Prop := ∃ x ∈ s.stock.queue, x.station = own
  let counts : Prop := t.stock.displaced = s.stock.displaced ∧ t.stock.refused = s.stock.refused
  t.ownFractionIs f ∧ t.stock.ownFraction = f ∧
    (s.stock.queue.Pairwise RestockEntry.ranksAbove → (s.stock.active = false → ¬ present) →
      t.stock.queue.Pairwise RestockEntry.ranksAbove) ∧
    (s.stock.active = false → asks →
      t.stock.active = true ∧ RestockQueued (.bayAsk f) seq s t ∧ OwnOffered f s t) ∧
    (s.stock.active = true → receipt = true → clears →
      t.stock.active = false ∧ t.stock.displacedMark = false ∧ RestockQueued .bayDone seq s t ∧ counts ∧
        (∀ x : RestockEntry, x ∈ t.stock.queue ↔ x ∈ s.stock.queue ∧ x.station ≠ own) ∧
        (present → TurnReckoned s t) ∧ (¬ present → TurnStands s t)) ∧
    (s.stock.active = true → ¬ (receipt = true ∧ clears) → t.stock.active = true ∧
      (present → counts ∧ t.stock.displacedMark = s.stock.displacedMark ∧ TurnReckoned s t ∧
        ∃ e : RestockEntry, s.stock.queue.find? (fun x => x.station == own) = some e ∧
          ∀ x : RestockEntry, x ∈ t.stock.queue ↔
            x = { e with fraction := f } ∨ (x ∈ s.stock.queue ∧ x.station ≠ own)) ∧
      (¬ present → f ≠ s.stock.ownFraction → OwnOffered f s t)) ∧
    ((s.stock.active = false ∧ ¬ asks) ∨
        (s.stock.active = true ∧ ¬ (receipt = true ∧ clears) ∧ ¬ present ∧ f = s.stock.ownFraction) →
      t.stock.active = s.stock.active ∧ t.stock.displacedMark = s.stock.displacedMark ∧
        t.stock.queue = s.stock.queue ∧ counts ∧ TurnStands s t)

/-! ### The close of a fill (R38 to R41) -/

/-- A point leaves CLOSING: OUT_OF_SERVICE when it is marked so, IDLE when its switch already shows
HOLSTERED or OPEN, ENDED otherwise; `c` is its context as closed (R40, R41, R44). -/
def PointClosed (p : PointId) (c : FillContext) (out : Bool) (s t : State) : Prop :=
  t.port.attention.points[p] = some (.ended c.endReason) ∧
    (t.point p).timers = PointTimers.stopped ∧ (t.point p).valve = .closed ∧
    (∀ x : PointId, t.switchAt x = s.switchAt x) ∧
    if out = true then
      (t.point p).state = .outOfService ∧ (t.point p).ctx = c ∧ (t.line p).powered = false ∧
        ParkStands s t
    else if s.switchAt p = some false then
      (t.point p).state = .idle ∧ (t.point p).ctx = FillContext.empty ∧ (t.line p).powered = false ∧
        ParkFollows p s t
    else (t.point p).state = .ended ∧ (t.point p).ctx = c ∧ ParkStands s t

/-- A record is closed in place in its slot with a net volume and a cost, every other slot and the rest of
record memory standing (R154, R63). -/
def RecordClosed (p : PointId) (c : FillContext) (k : Nat) (r : Record) (receipt : Bool) (f : FillRecord)
    (n : Int) (cost : Option Int) (s t : State) : Prop :=
  (∃ g : FillRecord,
    g = { f with
      timeClosed := s.peers.siteTime, gross := (t.meter p).gross, net := n, tm := (t.meter p).tm
      cost := cost, uncompensated := (t.meter p).uncompensated, backflow := (t.meter p).backflow
      overrun := decide (n * 100 > (c.preset.getD 0 : Nat) * 101)
      disputed := c.disputed, endReason := c.endReason, areaA := g.areaA, areaB := g.areaB } ∧
    slotAt t.rm.slots k = some
      ⟨true, { r with closed := true, shift := s.peers.shift, body := .fill receipt g }⟩) ∧
  (∀ j : Nat, j ≠ k → slotAt t.rm.slots j = slotAt s.rm.slots j) ∧
  t.rm = { s.rm with slots := t.rm.slots }

/-- A channel takes its final interval and stops with the net volume `n` (R38, R63). -/
def ChannelClosed (p : PointId) (ms : Nat) (temp : TempReading) (mp : MeterParams) (q : Fin 8)
    (c : FillContext) (n : Int) (s t : State) : Prop :=
  EndsInterval mp s.params.products[q] ms temp (s.meter p) (t.meter p) ∧
    (t.meter p).counting = false ∧ (t.meter p).net = n ∧
    (t.meter p).overrun = decide (n * 100 > (c.preset.getD 0 : Nat) * 101)

/-- The compartment of a closed fill has a new book stock, and its quiet timer starts afresh when no other
fill is open on it (R133, R138). -/
def BookMoved (p : PointId) (book : Int) (s t : State) : Prop :=
  let c := s.compartmentOf p
  t.comp c = { s.comp c with book := book, quiet := (t.comp c).quiet } ∧
    (t.comp c).quiet =
      (if s.started = true ∧ ∀ x : PointId, x ≠ p → s.role x ≠ .unused → s.compartmentOf x = c →
          (s.point x).state.isOpen = false then some 0
       else (s.comp c).quiet)

/-- A delivery closes as a context `c` says, `m` being its machine, `a` its account and `q` its product:
the final interval, the record, the own total and the open-preset list, the book stock, the bill and the
CLOSE bulletin, then the restock evaluation and where the point goes (R38 to R41, R59, R63, R68, R92, R133,
R140, R154, R160). -/
structure DeliveryClosed (p : PointId) (ms : Nat) (temp : TempReading) (c : FillContext) (out : Bool)
    (m : RosterRecord) (a : Fin 32) (q : Fin 8) (k : Nat) (r : Record) (f : FillRecord)
    (mp : MeterParams) (n cost : Int) (s t : State) : Prop where
  channel : ChannelClosed p ms temp mp q c n s t
  price : cost = (n * (c.price.getD 0 : Nat) + 5000) / 10000
  record : RecordClosed p c k r false f n (some cost) s t
  book : BookMoved p ((s.comp (s.compartmentOf p)).book - n) s t
  account : t.journal.accounts[a] = ⟨s.journal.accounts[a].net + n,
    s.journal.accounts[a].cost + cost, s.journal.accounts[a].count + 1⟩
  others : ∀ x : Fin 32, x ≠ a → t.journal.accounts[x] = s.journal.accounts[x]
  figures : t.journal.figures = { s.journal.figures with
    nets := s.journal.figures.nets.set q (s.journal.figures.nets[q] + n)
    deliveries := s.journal.figures.deliveries + 1 }
  view : t.allowance = { s.allowance with
    own := t.allowance.own
    openPresets := s.allowance.openPresets.filter (fun o => o.point != p) }
  total : t.allowance.ownTotal m.fleet = min 2147483647 (s.allowance.ownTotal m.fleet + n.toNat)
  totals : ∀ x : Nat, x ≠ m.fleet → t.allowance.ownTotal x = s.allowance.ownTotal x
  bulletin : s.peers.round = none → s.link.queue.length ≤ 6 → ∃ x ∈ t.link.queue, x.urgent = false ∧
    x.bulletin = ⟨s.params.siteCode, s.params.stationId, s.metrology.epoch, s.link.nextSeq, s.shiftNo,
      .closeFill m.fleet (t.allowance.ownTotal m.fleet) n.toNat (p.val + 1)⟩
  restock : ∃ fraction : Nat, RestockEvaluated false fraction ((s.link.nextSeq + 1) % 256) s t
  point : PointClosed p c out s t
  frame : onlyChanges [.point p, .line p, .meter p, .allowance, .link, .peers, .comp (s.compartmentOf p),
    .restock, .totals, .checkpoints, .rm, .attention, .flags, .faults, .mode, .park, .scanner] s t

/-- A receipt closes as a context `c` says: the final interval, the record with no cost, the book stock,
then the restock evaluation and where the point goes; nothing is billed and no CLOSE is queued (R39 to R41,
R43, R63, R133, R140, R154). -/
structure ReceiptClosed (p : PointId) (ms : Nat) (temp : TempReading) (c : FillContext) (out : Bool)
    (q : Fin 8) (k : Nat) (r : Record) (f : FillRecord) (mp : MeterParams) (n : Int)
    (s t : State) : Prop where
  channel : ChannelClosed p ms temp mp q c n s t
  record : RecordClosed p c k r true f n none s t
  book : BookMoved p ((s.comp (s.compartmentOf p)).book + n) s t
  restock : ∃ fraction : Nat, RestockEvaluated true fraction s.link.nextSeq s t
  point : PointClosed p c out s t
  frame : onlyChanges [.point p, .line p, .meter p, .link, .peers, .comp (s.compartmentOf p), .restock,
    .checkpoints, .rm, .attention, .flags, .faults, .mode, .park, .scanner] s t

/-! ### A full transmit queue (R94) -/

/-- A bulletin makes way in a full queue: the oldest TALLY part not in SENDING or, when there is none, the
oldest bulletin not in SENDING (R94). -/
def Link.makesWay (l : Link) (v : Queued) : Prop :=
  let xs := if l.tx = .sending then l.queue.tail else l.queue
  let tally (x : Queued) : Prop :=
    ∃ (r i n : Nat) (fr : Option Nat) (es : List (Nat × Nat)), x.bulletin.body = .tally r i n fr es
  v ∈ xs ∧
    ((∃ x ∈ xs, tally x) → tally v ∧ ∀ x ∈ xs, tally x → v.stamp ≤ x.stamp) ∧
    ((∀ x ∈ xs, ¬ tally x) → ∀ x ∈ xs, v.stamp ≤ x.stamp)

/-- A bulletin `b` that is not urgent is queued in a full queue: `v` makes way, with the displaced count; if
`v` was at the head its attempt ends without a busy finding, and the next head begins its own, with a busy
finding where the carrier is present (R93, R94, R95). -/
def QueuedInFull (b : Bulletin) (v : Queued) (s t : State) : Prop :=
  let rest := s.link.queue.erase v
  let headGone : Prop := s.link.queue.head? = some v
  s.link.makesWay v ∧ t.link.nextSeq = (s.link.nextSeq + 1) % 256 ∧
    (∃ x : Queued, x.bulletin = b ∧ x.busy = 0 ∧ x.urgent = false ∧
      (∀ y ∈ s.link.queue, y.stamp < x.stamp) ∧
      t.link.queue = (if headGone ∧ s.link.carrier = true then
          rest.modifyHead (fun h => { h with busy := h.busy + 1 }) else rest) ++ [x]) ∧
    t.link.tx = (if headGone then (if s.link.carrier = true then .defer else .quiet) else s.link.tx) ∧
    t.link.counters = { s.link.counters with
      queued := min 4294967295 (s.link.counters.queued + 1)
      displaced := min 4294967295 (s.link.counters.displaced + 1)
      busy := if headGone ∧ s.link.carrier = true then min 4294967295 (s.link.counters.busy + 1)
        else s.link.counters.busy }

/-! ### A tally round in progress (R93, R122 to R125) -/

/-- A bulletin is the part of the round `r` in progress that was queued last (R124, R125). -/
def State.partOfRound (s : State) (b : Bulletin) (r : Round) : Prop :=
  s.peers.round = some r ∧ ∃ (i c : Nat) (fr : Option Nat) (es : List (Nat × Nat)),
    b.body = .tally r.number i c fr es ∧ r.next = i + 1

/-- The body of part `k` of a round as it is queued now: its 39 machines with their own totals, and the own
fraction while the own restock request is active (R91, R123). -/
def State.partBody (s : State) (r : Round) (k : Nat) : BulletinBody :=
  .tally r.number k r.parts (if s.stock.active = true then some s.ownFractionNow else none)
    (((r.list.drop (39 * k)).take 39).map (fun fleet => (fleet, s.allowance.ownTotal fleet)))

/-- A TALLY part of the round `r` with index `k`, as it is queued with a sequence number (R92, R124). -/
def State.isPart (s : State) (r : Round) (k seq : Nat) (x : Queued) : Prop :=
  x.busy = 0 ∧ x.urgent = r.urgent ∧
    x.bulletin =
      ⟨s.params.siteCode, s.params.stationId, s.metrology.epoch, seq, s.shiftNo, s.partBody r k⟩

/-- The head of a queue makes a busy finding where the carrier is present (R95). -/
def met (carrier : Bool) (qs : List Queued) : List Queued :=
  if carrier = true then qs.modifyHead (fun h => { h with busy := h.busy + 1 }) else qs

/-- The transmitter holds a queue whose head has begun its attempt (R95). -/
def Attempts (carrier : Bool) (qs : List Queued) (t : State) : Prop :=
  t.link.queue = met carrier qs ∧
    t.link.tx = (if qs = [] then .idle else if carrier = true then .defer else .quiet)

/-- A normal round starts as the queue becomes empty: it takes the next number and the machines with an own
total, and its first part is queued (R122, R123, R124). -/
def RoundBegins (carrier : Bool) (s t : State) : Prop :=
  let list := s.allowance.own.map Prod.fst
  let r : Round := ⟨s.peers.nextRound, list, if list = [] then 1 else (list.length + 38) / 39, 1, false⟩
  t.peers = { s.peers with
    pendingCount := 0, nextRound := (s.peers.nextRound + 1) % 256, round := some r } ∧
  t.link.nextSeq = (s.link.nextSeq + 1) % 256 ∧
  ∃ x : Queued, s.isPart r 0 s.link.nextSeq x ∧ Attempts carrier [x] t

/-- The part of the round `r` in progress that was queued last has left the head of the queue, `rest` staying.
The next part is queued, an urgent one ahead of `behind`, which is `rest` as it then stands; after the last part
the round ends, and the next normal round starts where one is due (R93, R99, R122, R124, R125). -/
def RoundGoesOn (r : Round) (carrier : Bool) (rest behind : List Queued) (s t : State) : Prop :=
  if r.next < r.parts then
    t.peers = { s.peers with round := some { r with next := r.next + 1 } } ∧
      t.link.nextSeq = (s.link.nextSeq + 1) % 256 ∧
      ∃ x : Queued, s.isPart r r.next s.link.nextSeq x ∧
        Attempts carrier (if r.urgent = true then x :: behind else rest ++ [x]) t
  else if rest = [] ∧ 1 ≤ s.peers.pendingCount ∧ s.peers.tallyTimer = true then RoundBegins carrier s t
  else t.peers = { s.peers with round := none } ∧ t.link.nextSeq = s.link.nextSeq ∧ Attempts carrier rest t

/-! ### A rollover at an empty queue (R89, R120, R122) -/

/-- The bulletins queued after a rollover to a shift at an empty queue: an OPEN for each own delivery fill
now open, points ascending, with its remaining preset as hold volume; when there is none and the tally timer
runs, the one part of a normal round over no machine (R89, R120, R122, R123). -/
def RolloverQueued (shift : Nat) (s t : State) : Prop :=
  let opens : List BulletinBody := ([0, 1, 2, 3] : List PointId).filterMap (fun p =>
    match s.role p, (s.point p).ctx.machine with
    | .delivery, some m =>
      if (s.point p).state.isOpen = true then
        some (.openFill m.fleet
          (max 0 (((s.point p).ctx.preset.getD 0 : Nat) - (s.meter p).net)).toNat s.params.maxFill
          (p.val + 1))
      else none
    | _, _ => none)
  let bodies : List BulletinBody :=
    if opens = [] ∧ s.peers.tallyTimer = true then
      [.tally s.peers.nextRound 0 1 (if s.stock.active = true then some s.ownFractionNow else none) []]
    else opens
  s.link.queue = [] → (∀ x ∈ t.link.queue, x.urgent = false) ∧
    t.link.queue.map Queued.bulletin = bodies.mapIdx (fun i body =>
      ⟨s.params.siteCode, s.params.stationId, s.metrology.epoch,
        if i = 0 then s.link.nextSeq else (s.link.nextSeq + i) % 256, shift, body⟩)

/-! ### What the reads return (R44, R67, R108, R126, R146)

The widths and the order of the items are the model's where the rules leave them open (log entries 8 and
23). -/

/-- A list preceded by its length. -/
def counted {α : Type} (l : List α) (f : α → List Item) : List Item := .num 4 l.length :: l.flatMap f

/-- The parameters of Table 2-2 of a point, none of an UNUSED one (R44, R17). -/
def PointParams.returned (x : PointParams) : List Item :=
  if x.role = .unused then
    [.none 1, .none 1, .none 4, .none 4, .none 4, .none 4, .none 4, .none 4, .none 4, .none 4, .none 4]
  else
    [.num 1 (x.compartment.val + 1), .num 1 (if x.autoConfirm = true then 1 else 0), .num 4 x.minFill,
      .num 4 x.defaultPreset, .num 4 x.slowdown, .num 4 x.primeTime, .num 4 x.noFlowTime,
      .num 4 x.pauseGrace, .num 4 x.tagLoss, .num 4 x.settleTime, .num 4 x.faultLimit]

/-- The fill context of Table 2-3, with the roster record of its machine or what a refusal from IDENT
names, and with the end and refusal reasons (R44, R19). -/
def FillContext.returned (c : FillContext) : List Item :=
  (match c.machine with
    | some m => [.num 2 m.fleet, .num 8 m.tag.toNat, .num 1 m.account, .bytes [m.products],
        Item.opt 4 m.allowance, Item.opt 4 m.tank, Item.flag m.barred]
    | none => [Item.opt 2 (c.named.map Prod.fst), .none 8, Item.opt 1 (c.named.map Prod.snd), .none 1,
        .none 4, .none 4, .none 1]) ++
  [Item.opt 8 (c.tag.map BitVec.toNat), Item.flag c.manual, Item.opt 4 c.offer, Item.opt 4 c.request,
    Item.opt 2 c.operator, Item.opt 4 c.preset, Item.opt 4 c.price, Item.opt 4 c.slot, Item.opt 4 c.seq,
    Item.opt 1 (c.endReason.map EndCause.code), Item.flag c.disputed,
    Item.opt 1 (c.refusal.map RefusalReason.code)]

/-- What READ_POINT returns: role, state, valve stage, parameters, context and reasons, the mark, the tag
line, the volumes, the channel, and the detail it clears (R44, R67, R13, R182). -/
def State.pointReturned (s : State) (p : PointId) : List Item :=
  let x := s.point p
  let l := s.line p
  let m := s.meter p
  let volume (v : Int) : Item := if x.state.isOpen = true then .num 4 v else .none 4
  let target (v : Option Int) : Item := match v with
    | some n => .num 4 n
    | none => .none 4
  [.num 1 (s.role p).code, .name (.pointState x.state), .name (.valve x.valve)] ++ (s.pp p).returned ++
  x.ctx.returned ++ [Item.flag x.outMark] ++
  [.name (.presence l.presence), Item.opt 8 (if l.presence = .present then l.current.map BitVec.toNat
      else none), Item.flag l.candidate.isSome, .num 4 l.timeoutErrors, .num 4 l.checkErrors,
    .num 4 l.overrunErrors, .num 4 m.live, volume m.gross, volume m.net] ++
  [.name (.counting m.counting), .num 4 m.live, .num 4 m.elapsed, .num 1 m.lastBand.val,
    .num 2 m.lastTemp, target m.stopTarget, target m.slowTarget, .num 4 m.faults, .num 8 m.c, .num 8 m.w,
    .num 4 m.rpos, .num 2 m.tm, .num 4 m.gross, .num 4 m.net, Item.flag m.uncompensated,
    Item.flag m.backflow, Item.flag m.overrun, Item.flag m.tempGood] ++
  (match s.port.attention.points[p] with
    | some (.offer v) => [.name (.detail .offer), .num 4 v]
    | some (.refused r) => [.name (.detail .refused), .num 1 r.code]
    | some (.ended (some e)) => [.name (.detail .ended), .num 1 e.code]
    | some (.ended none) => [.name (.detail .ended), .none 1]
    | none => [.none 1])

/-- What READ_STOCK returns of a compartment; the single flag 00h of one that is not present (R146). -/
def State.compReturned (s : State) (c : CompId) : List Item :=
  let x := s.comp c
  match s.cp c with
  | none => [Item.flag false]
  | some k =>
    [Item.flag true, .num 1 k.product, .num 4 k.capacity, .num 4 k.reserve, .num 2 k.ullage,
      .num 2 k.highLevel, .num 2 k.askLevel, .num 2 k.clearLevel, .num 4 k.tolerance, .num 4 k.opening] ++
    counted k.strapping (fun v => [.num 2 v.1, .num 4 v.2]) ++
    (match s.rm.baselines[c] with
      | some b => [.num 4 x.book, .num 4 b.value, .num 4 b.seq]
      | none => [.num 4 x.book, .none 4, .none 4]) ++
    [.name (.probe x.probe), Item.opt 2 x.level, Item.opt 4 x.volume, Item.opt 4 x.lastGood,
      .num 2 (s.fractionAt c k), .num 4 (s.available c), .num 4 (s.space c), .num 4 (x.quiet.getD 0),
      .num 4 x.varianceCount, Item.flag x.variance, Item.flag x.probeFault]

/-- What READ_STOCK returns: the compartments, the restock request and its queue, and the details it clears;
`rank` is the position of the own entry (R146, R182). -/
def State.stockReturned (s : State) (fraction : Nat) (rank : Option Nat) : List Item :=
  let k := s.stock
  let a := s.port.attention.stock
  s.compReturned 0 ++ s.compReturned 1 ++ s.compReturned 2 ++
  [Item.flag k.active, .num 2 fraction, Item.flag k.displacedMark, .num 4 s.params.bays] ++
  counted k.queue (fun e => [.num 1 e.station, .num 2 e.fraction, .num 4 e.refresh]) ++
  [Item.opt 1 rank, Item.flag k.turn, .num 4 k.displaced, .num 4 k.refused] ++
  [Item.flag a.probe[0], Item.flag a.probe[1], Item.flag a.probe[2], Item.flag a.variance[0],
    Item.flag a.variance[1], Item.flag a.variance[2], Item.flag a.turn]

/-- What READ_LINK returns: the states, the numbers, the queue, the ring, the conditions, the parameters and
the counters of Table 5-7, and the details it clears (R108, R182). -/
def State.linkReturned (s : State) : List Item :=
  let l := s.link
  let k := l.counters
  let a := s.port.attention.link
  [.name (.tx l.tx), .name (.rx l.rx), .num 1 l.nextSeq, .num 1 s.metrology.epoch] ++
  counted l.queue (fun q =>
    match q.bulletin.body with
    | .openFill _ h _ _ => [.num 1 1, .num 1 q.bulletin.seq, .num 4 q.busy, Item.flag q.urgent, .num 4 h]
    | .closeFill f _ _ _ => [.num 1 2, .num 1 q.bulletin.seq, .num 4 q.busy, Item.flag q.urgent, .num 2 f]
    | .tally .. => [.num 1 3, .num 1 q.bulletin.seq, .num 4 q.busy, Item.flag q.urgent]
    | .bayAsk _ => [.num 1 4, .num 1 q.bulletin.seq, .num 4 q.busy, Item.flag q.urgent]
    | .bayDone => [.num 1 5, .num 1 q.bulletin.seq, .num 4 q.busy, Item.flag q.urgent]) ++
  [.num 4 l.ring.length, Item.flag l.jammed, Item.flag l.duplicate, .num 2 s.params.siteCode,
    .num 1 s.params.stationId, .num 4 s.params.maxFill] ++
  [.num 4 k.queued, .num 4 k.transmitted, .num 4 k.busy, .num 4 k.dropped, .num 4 k.displaced,
    .num 4 k.purged, .num 4 k.jam, .num 4 k.good, .num 4 k.crcErrors, .num 4 k.lengthErrors,
    .num 4 k.gapErrors, .num 4 k.formatErrors, .num 4 k.overruns, .num 4 k.duplicateId] ++
  [Item.flag a.jammed, Item.flag a.duplicate, Item.flag a.viewFull, Item.flag a.overrun] ++
  counted a.lost (fun n => [.num 1 n])

/-- What READ_PEERS returns: every other station's entry, the counts, the numbers and times, the shift
table, the round in progress, and the detail it clears (R126, R182). -/
def State.peersReturned (s : State) : List Item :=
  let u := s.peers
  ((List.range 32).filter (fun i => i + 1 != s.params.stationId)).flatMap (fun i =>
    let x := s.peer (i + 1)
    [.name (.peer x.state), Item.opt 1 x.epoch, Item.opt 1 x.last, .num 4 x.g, .num 4 x.h,
      Item.opt 1 x.round, Item.opt 4 x.parts, .num 2 x.mask.toNat, Item.flag x.complete,
      Item.opt 4 x.heard]) ++
  [.num 4 u.duplicates, .num 4 u.stale, .num 4 u.epochChanges, .num 4 u.adopted,
    .num 1 s.params.stationId, .num 1 s.metrology.epoch, Item.opt 4 u.siteTime, Item.opt 4 u.shift] ++
  counted s.params.shiftStarts (fun n => [.num 4 n]) ++
  [.num 4 s.params.period, .num 4 u.pendingCount, .num 1 u.nextRound, Item.flag u.warmUp] ++
  (match u.round with
    | some r => [.num 1 r.number, .num 4 r.parts, .num 1 r.next, .num 4 r.list.length, Item.flag r.urgent]
    | none => [.none 1, .none 4, .none 1, .none 4, .none 1]) ++
  counted s.port.attention.link.lost (fun n => [.num 1 n])

/-- What READ_ACCOUNT returns: the totals of the account, the shift, the shift figures, both price tables and
PRICE_HOLD (R164). -/
def State.accountReturned (s : State) (a : Fin 32) : List Item :=
  let j := s.journal
  [.num 4 j.accounts[a].net, .num 4 j.accounts[a].cost, .num 4 j.accounts[a].count,
    Item.opt 4 s.peers.shift] ++
  j.figures.nets.toList.map (Item.num 4) ++ [.num 4 j.figures.deliveries, .num 4 j.figures.voids] ++
  j.current.toList.map (fun n : Nat => .num 4 n) ++ j.pending.toList.map (fun n : Nat => .num 4 n) ++
  [Item.flag j.hold]

/-- What READ_VIEW returns: the roster record and the machine's part of the view, `gap` being the gap
deduction, then the counts of the whole view and the values in use (R86, R14). -/
def State.viewReturned (s : State) (m : RosterRecord) (gap : Nat) : List Item :=
  let a := s.allowance
  [.num 2 m.fleet, .num 8 m.tag.toNat, .num 1 m.account, .bytes [m.products], Item.opt 4 m.allowance,
    Item.opt 4 m.tank, Item.flag m.barred] ++
  [Item.opt 4 m.allowance, .num 4 (a.ownTotal m.fleet)] ++
  counted (a.contributions.filter (fun c => c.fleet = m.fleet)) (fun c => [.num 1 c.peer, .num 4 c.value]) ++
  counted (a.holds.filter (fun h => h.fleet = m.fleet))
    (fun h => [.num 1 h.peer, .num 4 h.volume, .num 4 h.expiry]) ++
  counted (a.openPresets.filter (fun o => o.fleet = m.fleet))
    (fun o => [.num 1 (o.point.val + 1), .num 4 o.preset]) ++
  [.num 4 gap, Item.flag s.peers.warmUp, Item.opt 4 (m.allowance.map (s.remaining m.fleet)),
    .num 4 a.contributions.length, .num 4 a.holds.length, .num 4 a.unknownFleet,
    .num 4 a.contributionRefusals, .num 4 a.holdRefusals, .num 4 s.params.gapReserve,
    .num 4 s.params.gapCap]

/-- Three check codes, none where there are none (R174, R175). -/
def codesReturned : Option Codes → List Item
  | some c => [.num 4 c.stored.toNat, .num 4 c.memory.toNat, .num 4 c.working.toNat]
  | none => [.none 4, .none 4, .none 4]

/-- What READ_STATUS returns: modes and restarts, time and shift, the seven inputs, the park state, the details
of HALT and ESTOP, the marks and errors, and the metrology items (R188, R175). -/
def State.statusReturned (s : State) : List Item :=
  let t := s.port
  let m := s.metrology
  let x := s.scanner
  [.num 1 s.mode.code, .name (.restart t.restartReason), Item.flag t.restarted, Item.flag t.woke,
    Item.opt 4 s.peers.siteTime, Item.opt 4 s.peers.shift] ++
  [.name (.switch x.points[0].value), .name (.switch x.points[1].value), .name (.switch x.points[2].value),
    .name (.switch x.points[3].value), .name (.switch x.brake.value), .name (.switch x.estop.value),
    .name (.switch x.cal.value)] ++
  [Item.flag t.parkPending, .num 1 t.pollCode,
    .bytes [BitVec.ofNat 8 ((if t.wakeEnables[0] = true then 1 else 0) +
      (if t.wakeEnables[1] = true then 2 else 0) + (if t.wakeEnables[2] = true then 4 else 0) +
      (if t.wakeEnables[3] = true then 8 else 0))],
    (match t.wakeReason with
      | some r => .name (.wake r)
      | none => .none 1)] ++
  codesReturned t.attention.halt ++
  [(match t.attention.estop with
      | some (some time) => .num 4 time
      | _ => .none 4),
    Item.flag (decide (∃ p : PointId, t.faults[p] ≠ FaultMarks.clear)), .num 4 t.portErrors] ++
  [.name (.metrology m.status), .num 4 s.params.calibrationCount,
    Item.opt 4 (m.reference.map BitVec.toNat)] ++
  (match m.last with
    | some c => [Item.opt 4 c.time, .name (.outcome c.passed)]
    | none => [.none 4, .none 1]) ++
  [Item.flag m.checking, Item.flag m.checkPending, Item.opt 4 m.timer] ++ codesReturned m.codes ++
  [.num 4 s.rm.startCounter.toNat, .num 1 m.epoch] ++
  if s.mode = .commission then
    (match m.load with
      | some l => [.name (.staging true), .num 4 l.received]
      | none => [.name (.staging false), .num 4 0])
  else [.none 1, .none 4]

/-- What READ_CONDITIONS returns: every flag with whether its condition holds (R183). -/
def State.conditionsReturned (s : State) : List Item :=
  let f := s.port.flags
  let pair (c : CompId) (flag holds : Bool) : List Item :=
    if (s.cp c).isSome = true then [Item.flag flag, Item.flag holds] else [.none 1, .none 1]
  ([0, 1, 2] : List CompId).flatMap (fun c => pair c f.variance[c] (s.comp c).variance) ++
  ([0, 1, 2] : List CompId).flatMap (fun c => pair c f.probeFault[c] (s.comp c).probeFault) ++
  ([0, 1, 2, 3] : List PointId).flatMap (fun p =>
    [Item.flag f.tempAbsent[p], Item.flag (!(s.meter p).tempGood)]) ++
  [Item.flag f.jammed, Item.flag s.link.jammed, Item.flag f.duplicate, Item.flag s.link.duplicate,
    Item.flag f.viewFull, Item.flag s.viewFull, Item.flag f.journalLow, Item.flag s.journal.low,
    Item.flag f.journalFull, Item.flag s.journal.full, Item.flag f.portError, Item.flag false]

/-- What READ_FAULTS returns: the marks of each point (R184). -/
def State.faultsReturned (s : State) : List Item :=
  ([0, 1, 2, 3] : List PointId).flatMap (fun p =>
    let x := s.port.faults[p]
    [Item.flag x.meter, Item.flag x.valve, Item.flag x.noFlow, Item.flag x.tagLine, Item.flag x.temp])

end Sys2Proof.Machine
end

