-- ==== Sys2Proof/Certificates/Slice0/Obligations.lean ====
section
/-! DEFINITION. The statements for the provers. Each says what its name says; OBLIGATIONS.json gives the
rules each rests on. Where a statement gives the items of a response, their widths are those of R192; a
name to which the manual gives no code, and the order of items the manual does not give, are the model's
(log entries 8 and 23). -/

open Sys2Proof Sys2Proof.Machine

/-! ### The block as a whole -/

/-- A step takes the command at the front of the queue and carries it out on the state with the queue's
rest. On an empty queue the block idles, which is the model's choice (log entry 2). -/
def Obligations.StepTakesTheFrontCommand : Prop :=
  (∀ (c : Instr) (rest : List Instr) (s : State),
    step { s with pending := c :: rest } = exec c { s with pending := rest }) ∧
  ∀ s : State, s.pending = [] → step s = .next s

/-- Whatever command is taken, the valves are driven as R20 says, and only then. -/
def Obligations.ValvesFollowTheConditions : Prop :=
  ∀ s t : State, ValvesDriven s → step s = .next t → ValvesDriven t

/-- Right after reset every valve is closed, no cause is pending, the record memory is canonical, every
collection is within its capacity and no request is in work. -/
def Obligations.ResetMeetsTheInvariants : Prop :=
  ValvesDriven State.reset ∧ (∀ p, (State.reset.point p).valve = .closed) ∧
    AttentionShown State.reset ∧ State.reset.port.attention.isPending = false ∧
    State.reset.rm.wf = true ∧ Bounded State.reset ∧ WorkFits State.reset

/-- After every command the attention output and the ATTN indication of the status byte show whether a
cause is pending (R180, R179). -/
def Obligations.AttentionOutputShowsPendingCauses : Prop :=
  ∀ (i : Instr) (s t : State), exec i s = .next t →
    AttentionShown t ∧ t.statusByte.getLsbD 7 = t.port.attention.isPending

/-- Every step keeps the record memory in its canonical form. -/
def Obligations.RecordMemoryStaysCanonical : Prop :=
  ∀ s t : State, s.rm.wf = true → step s = .next t → t.rm.wf = true

/-- Every step keeps the transmit queue, the receive ring, the contribution table, the hold list and
the restock queue within their capacities, the journal within its ring of 4,096 slots, and the own totals
listed by ascending fleet number. -/
def Obligations.CollectionsStayWithinCapacity : Prop :=
  ∀ s t : State, s.rm.wf = true → Bounded s → step s = .next t → Bounded t

/-- Every step keeps it that only a request on record memory is in work, START only in STANDBY, and that
a check is in progress only in RUN and PARKED. So HALTED and COMMISSION are left only through a reset or a
power-on, whatever request is in work (R169). -/
def Obligations.HaltedAndCommissionEndOnlyByReset : Prop :=
  (∀ s t : State, WorkFits s → step s = .next t → WorkFits t) ∧
  ∀ (i : Instr) (s t : State), s.mode = .halted ∨ s.mode = .commission → WorkFits s →
    resetsMachine i = false → exec i s = .next t → t.mode = s.mode

/-- From START until the next reset the shift number never decreases, whatever request is in work
(R119). -/
def Obligations.ShiftNumberNeverDecreases : Prop :=
  ∀ (i : Instr) (s t : State), s.started = true → WorkFits s → resetsMachine i = false →
    exec i s = .next t → s.shiftNo ≤ t.shiftNo

/-! ### Frames -/

/-- The frame of a well-formed request is read back as that request (Table 11-9). The header and body of a
bulletin that fits the layouts are read back as that bulletin; its frame on the air is the preamble, header
and body, and their CRC, and its length byte gives the body's length (Tables 11-1 and 11-2, R104, R189). -/
def Obligations.FramesReadBack : Prop :=
  (∀ (i : Instr) (f : List Byte), i.wellFormed = true → requestFrame i = some f →
    parseRequest f = some i) ∧
  ∀ b : Bulletin, b.fits → parseFrame b.encode = some b ∧
    b.air = [0xAA, 0xAA, 0x7E] ++ b.encode ++ be 2 (crc16 b.encode).toNat ∧
    bodyLength b.encode + 10 = b.encode.length

/-! ### Power and reset -/

/-- POWER_ON counts the start, takes its epoch from the count, brings every block to its reset state
and enters STANDBY with the values of the image when one is found, COMMISSION otherwise. The scanner, the
points, the tag lines, the channels but for their line levels, the view, the link, the peer and shift
unit, the restock request, the journal's totals, prices and working state, the checks, the attention
causes, the flags, the fault marks and the park state stand as after a reset; the journal conditions are
judged once (R18, R46, R87, R128, R147, R151, R165, R169, R170, R180, R183, R184). RESET on a powered
machine has the same effect on every block, and only the restart reason differs (R178). That STARTING
takes one step, that POWER_ON and RESET cut short the writes in progress, and the line levels that stand
are the model's (log entries 1, 7 and 12); so are, among the reset values, those the manual does not give:
the character before the first, the draw, the frame on the air, the wake reason, the latched CAL value, the
response last sent and the figures of a channel that has never opened (log entry 24). An image found gives
its poll code, taken as 15 when above it, its wake enables and the start code, its stored metrology code (R185,
R165). -/
def Obligations.PowerOnAndResetStartTheMachine : Prop :=
  (∀ s : State, ∃ t : State, exec .powerOn s = .next t ∧ t.powered = true ∧
    t.pending = s.pending ∧
    t.rm.startCounter = s.rm.startCounter + 1 ∧
    t.metrology.epoch = (s.rm.startCounter + 1).toNat % 16 ∧
    t.mode = (if t.rm.image.isSome then .standby else .commission) ∧
    t.params = (match t.rm.image with
      | some m => readParams m
      | none => Params.none) ∧
    (t.scanner = .reset ∧ (∀ p, t.point p = Point.reset) ∧ (∀ p, t.line p = TagLine.reset) ∧
      (∀ p, t.meter p = Channel.reset (s.meter p).pin) ∧ t.allowance = Allowance.reset) ∧
    (t.link = { Link.reset s.link.carrier with
        rx := if t.rm.image.isSome then .hunt else .off
        jamTimer := t.rm.image.isSome && s.link.carrier } ∧
      t.peers = PeerUnit.reset ∧
      { t.stock with comps := Vector.replicate 3 Comp.reset } = Stock.reset s.stock.probeLines ∧
      (∀ c, { t.comp c with book := 0 } = Comp.reset)) ∧
    (t.journal.cursor = 0 ∧ t.journal.setAside = 0 ∧ t.journal.lost = 0 ∧
      t.journal.accounts = Vector.replicate 32 ⟨0, 0, 0⟩ ∧ t.journal.figures = .zero ∧
      t.journal.current = t.params.defaultPrices ∧ t.journal.pending = Vector.replicate 8 0 ∧
      t.journal.hold = false ∧ t.journal.writing = Vector.replicate 4 none ∧
      t.journal.waiting = Vector.replicate 4 none ∧
      t.journal.low = decide (t.freeSlots ≤ 64) ∧ t.journal.full = decide (t.freeSlots ≤ 4)) ∧
    ({ t.metrology with startCode := none, recovery := [], epoch := 0 } = Metrology.reset ∧
      (t.rm.image = none → t.metrology.startCode = none ∧ t.metrology.recovery = []) ∧
      ∀ m : List Host.Cell, t.rm.image = some m →
        t.metrology.startCode = some (BitVec.ofNat 32 (Mem.readBe m 6 4)) ∧
        t.port.pollCode = min 15 (Mem.readBe m (16 + Mem.readBe m 2 2 + 4) 1) ∧
        ∀ p : PointId, t.port.wakeEnables[p] =
          (Mem.read m (16 + Mem.readBe m 2 2 + 5)).getLsbD p.val) ∧
    ({ t.port with
        attention := .clear, attentionOut := false, flags := .clear, pollCode := 7
        wakeEnables := Vector.replicate 4 false } = Port.reset .powerOn ∧
      t.port.attention =
        { Attention.clear with journal := ⟨t.journal.low, t.journal.full, false⟩ } ∧
      t.port.flags =
        { CondFlags.clear with journalLow := t.journal.low, journalFull := t.journal.full } ∧
      (t.rm.image = none → t.port.pollCode = 7 ∧ t.port.wakeEnables = Vector.replicate 4 false))) ∧
  (∀ s : State, s.powered = true → ∃ t : State, exec .reset s = .next t ∧
    t.port.restartReason = .request ∧
    exec .powerOn s = .next { t with port := { t.port with restartReason := .powerOn } })

/-- A loss of power keeps the record memory and loses the working memory (R147, R87). What is being
written at that moment is free, and is left out here. That an unpowered working memory stands at its reset
values, and that the meter lines, the carrier-detect input and the probe lines keep what they give, are the model's
choices (log entries 25 and 12). -/
def Obligations.PowerLossKeepsRecordMemory : Prop :=
  ∀ s : State, s.powered = true → s.writesInProgress = false → ∃ t : State,
    exec .powerLoss s = .next t ∧ t.powered = false ∧ t.rm = s.rm ∧ t.link.queue = [] ∧
    t.journal = Journal.reset ∧ t.allowance = Allowance.reset ∧ t.params = Params.none ∧
    (∀ p, t.point p = Point.reset) ∧ (∀ p, (t.meter p).pin = (s.meter p).pin) ∧
    t.link.carrier = s.link.carrier ∧ t.stock.probeLines = s.stock.probeLines ∧ t.pending = s.pending

/-- STARTING scans the ring. The next journal seq is one above the highest of any slot, 1 when every slot
is free. The run ends at the held record of the highest seq and goes back, seq by seq, to the first slot
that does not carry on; a slot is held after the scan exactly when it lies in the run. Every record of the
run that a VOID record of the run names is marked (R149). With no slot held the write position is that after
the slot of highest seq, or 0 when no slot was ever used. With an image found no fill of the run stays
OPEN: each OPEN record is completed from its checkpoint, and the recovery list holds the seqs of the OPEN
deliveries in ascending order (R171). Of the run no other content changes, and record memory otherwise stands
but for the start counter. The book stock of a present compartment is its baseline with the records of the ring
above the baseline seq taken in order (R135). -/
def Obligations.StartingScansTheRingAndRebuildsTheBooks : Prop :=
  ∀ s : State, s.powered = false → s.rm.wf = true →
    (∀ (k : Nat) (x : Slot), slotAt s.rm.slots k = some x → k < 4096) →
    ∃ t : State, exec .powerOn s = .next t ∧ t.journal.oldest < 4096 ∧
      ((∀ (k : Nat) (x : Slot), slotAt s.rm.slots k = some x → x.record.seq < t.journal.nextSeq) ∧
        ((s.rm.slots = [] ∧ t.journal.nextSeq = 1) ∨
          ∃ (k : Nat) (x : Slot), slotAt s.rm.slots k = some x ∧
            x.record.seq + 1 = t.journal.nextSeq)) ∧
      (∀ (k : Nat) (x : Slot), slotAt t.rm.slots k = some x →
        (x.held = true ↔ (k + 4096 - t.journal.oldest) % 4096 < t.journal.held)) ∧
      ((∀ (k : Nat) (x : Slot), slotAt s.rm.slots k = some x → x.held = false) →
        t.journal.held = 0 ∧ (s.rm.slots = [] → t.journal.oldest = 0) ∧
        ∀ (k : Nat) (x : Slot), slotAt s.rm.slots k = some x →
          (∀ (j : Nat) (y : Slot), slotAt s.rm.slots j = some y → j ≠ k →
            y.record.seq < x.record.seq) → t.journal.oldest = (k + 1) % 4096) ∧
      t.rm = { s.rm with startCounter := s.rm.startCounter + 1, slots := t.rm.slots } ∧
      (∀ k : Nat, slotAt s.rm.slots k = none → slotAt t.rm.slots k = none) ∧
      (∀ (k : Nat) (x : Slot), slotAt s.rm.slots k = some x →
        ¬ (k + 4096 - t.journal.oldest) % 4096 < t.journal.held →
        slotAt t.rm.slots k = some ⟨false, x.record⟩) ∧
      (∀ (k : Nat) (x : Slot), slotAt s.rm.slots k = some x →
        (k + 4096 - t.journal.oldest) % 4096 < t.journal.held → ∃ w : Bool,
        (w = true ↔ x.record.voided = true ∨ ∃ v ∈ t.ring, v.2.body = .void x.record.seq) ∧
        slotAt t.rm.slots k = some ⟨true,
          if t.mode = .standby ∧ x.record.closed = false then
            Record.recover t.params { x.record with voided := w }
          else { x.record with voided := w }⟩) ∧
      t.metrology.recovery = (if t.mode = .standby then
        (List.range t.journal.held).filterMap (fun i =>
          match slotAt s.rm.slots ((t.journal.oldest + i) % 4096) with
          | some x =>
            (match x.record.body with
            | .fill false _ => if x.record.closed = true then none else some x.record.seq
            | _ => none)
          | none => none)
        else []) ∧
      ((∃ (k : Nat) (x : Slot), slotAt s.rm.slots k = some x ∧ x.held = true) → ∃ top : Nat,
        1 ≤ t.journal.held ∧
        (∀ (k : Nat) (x : Slot), slotAt s.rm.slots k = some x → x.held = true →
          x.record.seq ≤ top) ∧
        (∀ i : Nat, i < t.journal.held → ∃ x : Slot,
          slotAt s.rm.slots ((t.journal.oldest + i) % 4096) = some x ∧ x.held = true ∧
          x.record.seq + t.journal.held = top + 1 + i) ∧
        ∀ x : Slot, slotAt s.rm.slots ((t.journal.oldest + 4095) % 4096) = some x → x.held = true →
          x.record.seq + t.journal.held ≠ top) ∧
      (∀ v ∈ t.ring, ∀ q : Nat, v.2.body = .void q → ∀ x ∈ t.ring, x.2.seq = q → x.2.voided = true) ∧
      (t.mode = .standby → ∀ x ∈ t.ring, ∀ (receipt : Bool) (f : FillRecord),
        x.2.body = .fill receipt f → x.2.closed = true) ∧
      (∀ (c : CompId) (k : CompParams) (b : Baseline), t.cp c = some k →
        t.rm.baselines[c] = some b →
        (t.comp c).book = (t.ring.map Prod.snd).foldl (fun v r =>
          match r.body with
          | .fill receipt f =>
            if f.compartment = c ∧ r.closed = true ∧ b.seq < r.seq then
              (if receipt = true then v + f.net else v - f.net)
            else v
          | .stocktake x volume => if x = c ∧ b.seq < r.seq then (volume : Int) else v
          | _ => v) b.value)

/-- Recovery completes an OPEN fill record in place from its checkpoint, as INTERRUPTED with DISPUTED
set, with the volumes of R55 to R58 and the cost of R59 (R171, R66). That a time closed past 4,294,967,295 is held
as the whole sum is the model's choice (log entry 21). -/
def Obligations.RecoveryCompletesAnOpenFill : Prop :=
  ∀ (params : Params) (r : Record) (receipt : Bool) (f : FillRecord) (m : MeterParams) (q : Fin 8),
    r.body = .fill receipt f → params.meters[f.point] = some m → f.product = q.val + 1 →
    ∃ g : FillRecord,
      r.recover params = { r with body := .fill receipt g, closed := true } ∧
      g.timeClosed = r.time.map (· + f.checkpoint.elapsed) ∧
      g.gross = 10 * f.checkpoint.c / m.k ∧
      g.tm = (if f.checkpoint.rpos > 0 then
        (2 * f.checkpoint.w + f.checkpoint.rpos) / (2 * f.checkpoint.rpos) else 150) ∧
      g.net = (g.gross * (if params.products[q].compensated then
        1000000 - params.products[q].alpha * (g.tm - 150) else 1000000) + 500000) / 1000000 ∧
      g.cost = (if receipt then none else some ((g.net * (f.price.getD 0 : Nat) + 5000) / 10000)) ∧
      g.overrun = decide (g.net * 100 > (f.preset : Int) * 101) ∧
      g.uncompensated = f.checkpoint.uncompensated ∧ g.backflow = f.checkpoint.backflow ∧
      g.endReason = some .interrupted ∧ g.disputed = true ∧ g.preset = f.preset ∧ g.fleet = f.fleet ∧
      g.areaA = f.areaA ∧ g.areaB = f.areaB

/-! ### The Terminal Port -/

/-- A malformed frame is answered with REJECT and the code received, counts a port error and sets
PORT_ERROR; nothing else changes (R177). That the code is 00h where no byte came in, and that a LOAD_IMAGE whose
step byte names no step is malformed, are the model's choices (log entry 36). A well-formed request in a mode that Table 10-1 does not give for
it is refused with WRONG_MODE and changes no state (R178). -/
def Obligations.RejectedRequestsChangeNothing : Prop :=
  (∀ (s : State) (frame : List Byte), s.ready → parseRequest frame = none → ∃ t : State,
    exec (.terminalExchange frame) s = .next t ∧ answered t (frame.getD 0 0) .reject [] ∧
    t.port.portErrors = min 65535 (s.port.portErrors + 1) ∧
    t.port.flags = { s.port.flags with portError := true } ∧
    t.port.sent = s.outgoing.bytes s.statusByte ∧
    onlyChanges [.exchange, .portErrors, .flags] s t) ∧
  ∀ (s : State) (i : Instr) (code : Byte), s.ready → i.wellFormed = true → isRequest i = true →
    requestCode i = some code → takenIn i s.mode = false → ∃ t : State,
      exec i s = .next t ∧ answered t code .wrongMode [] ∧ onlyChanges [.exchange] s t

/-- While a request is in work an exchange sends NOT_READY and discards the request that arrives. An
exchange that brings any other request has the effect of that request, after the response of the exchange
has been sent, but one that brings a request that reads or writes record memory, in its mode, leaves it in work with the
value that CAL then has (R176, R4); that it always does so is the model's choice (log entry 10), since R176
says only that such a request may not finish before the next exchange. An exchange that brings RESET sends
its response and has the effect of RESET, whatever is in work (R178). One that brings a request outside its
modes, a record memory request among them, has it answered WRONG_MODE at once and leaves none in work (R178,
Table 10-1). -/
def Obligations.ExchangesBringRequests : Prop :=
  (∀ (s : State) (i : Instr) (frame : List Byte), s.powered = true → s.port.inWork = some i →
    parseRequest frame ≠ some .reset → ∃ t : State,
      exec (.terminalExchange frame) s = .next t ∧ t.port.sent = [s.statusByte, 0x00, 0x02, 0x00, 0x00] ∧
      t.port.inWork = some i ∧ t.port.response = s.port.response ∧ t.port.fresh = s.port.fresh ∧
      t.port.takenCal = s.port.takenCal ∧ onlyChanges [.exchange] s t) ∧
  (∀ (s : State) (i : Instr) (f : List Byte), s.ready → i.wellFormed = true → requestFrame i = some f →
    takenIn i s.mode = true → goesInWork i (sendResponse s) = true → ∃ t : State,
      exec (.terminalExchange f) s = .next t ∧ t.port.inWork = some i ∧
      t.port.takenCal = s.metrology.cal ∧
      t.port.sent = s.outgoing.bytes s.statusByte ∧ onlyChanges [.exchange] s t) ∧
  (∀ (s : State) (f : List Byte), s.powered = true → parseRequest f = some .reset → ∃ t : State,
      exec (.terminalExchange f) s = .next t ∧ t.port.sent = s.outgoing.bytes s.statusByte ∧
      exec .reset (sendResponse s) = .next { t with port := { t.port with sent := [] } }) ∧
  (∀ (s : State) (i : Instr) (f : List Byte), s.ready → i.wellFormed = true → isRequest i = true →
    requestFrame i = some f → goesInWork i (sendResponse s) = false →
    ∃ t : State, exec (.terminalExchange f) s = .next t ∧ exec i (sendResponse s) = .next t ∧
      t.port.sent = s.outgoing.bytes s.statusByte) ∧
  (∀ (s : State) (i : Instr) (f : List Byte) (code : Byte), s.ready → i.wellFormed = true →
    isRequest i = true → requestFrame i = some f → requestCode i = some code → takenIn i s.mode = false →
    ∃ t : State, exec (.terminalExchange f) s = .next t ∧ answered t code .wrongMode [] ∧
      t.port.inWork = none ∧ t.port.sent = s.outgoing.bytes s.statusByte ∧ onlyChanges [.exchange] s t)

/-- REQUEST_COMPLETE finishes the request in work with the effect the request has in its mode, fills
the response buffer, and the request ceases to be in work (R176). A LOAD_IMAGE END is decided by the value
CAL had when it was taken (R4). A CONFIRM in work whose mode has changed is finished under the mode it
finds: its point is no longer OFFERED, and it is refused with WRONG_STATE (R178, R25). That the whole
request is carried out at its completion is the model's choice (log entry 10). -/
def Obligations.RequestCompleteFinishesTheRequest : Prop :=
  (∀ (s : State) (i : Instr), s.powered = true → s.port.inWork = some i → i.wellFormed = true →
    isRequest i = true → takenIn i s.mode = true →
    (i = .loadImageEnd → s.port.takenCal = s.metrology.cal) → ∃ t : State,
      exec .requestComplete s = .next t ∧
      exec i { s with port := { s.port with inWork := none } } = .next t ∧
      t.port.inWork = none ∧ t.port.fresh = true) ∧
  (∀ s : State, s.powered = true → s.port.inWork = some .loadImageEnd → s.mode = .commission →
    ∃ t : State, exec .requestComplete s = .next t ∧ t.port.inWork = none ∧ t.port.fresh = true ∧
      t.metrology.cal = s.metrology.cal ∧
      exec .loadImageEnd { s with
          port := { s.port with inWork := none }
          metrology := { s.metrology with cal := s.port.takenCal } } =
        .next { t with metrology := { t.metrology with cal := s.port.takenCal } }) ∧
  (∀ (s : State) (b : Byte) (volume : BitVec 32) (operator : BitVec 16) (p : PointId),
    s.powered = true → s.port.inWork = some (.confirm b volume operator) → s.mode ≠ .run →
    pointOf b = some p → s.role p ≠ .unused → (s.point p).state ≠ .offered → ∃ t : State,
      exec .requestComplete s = .next t ∧ t.port.inWork = none ∧ answered t 0x07 .wrongState [] ∧
      onlyChanges [.exchange] s t)

/-! ### Loading an image -/

/-- LOAD_IMAGE BEGIN of a length in 64..32,768 sets STAGING and clears the area not in force (what a cleared
byte reads as is the model's choice, log entry 4). DATA at the
expected offset writes its bytes there and nowhere else; at another offset, or past the total length, it
is refused with INVALID and the expected offset (R166). -/
def Obligations.LoadedBytesAreStaged : Prop :=
  (∀ (s : State) (total : BitVec 16), s.ready → s.mode = .commission → 64 ≤ total.toNat →
    total.toNat ≤ 32768 → ∃ t : State,
      exec (.loadImageBegin total) s = .next t ∧
      t.metrology = { s.metrology with load := some ⟨total.toNat, 0⟩ } ∧
      t.rm = s.rm.setArea s.rm.staging [] ∧
      (∀ a, Mem.read (t.rm.area s.rm.staging) a = clearedByte) ∧
      s.rm.selector ≠ some s.rm.staging ∧
      answered t 0x01 .accepted [] ∧ onlyChanges [.metrology, .rm, .exchange] s t) ∧
  (∀ (s : State) (offset : BitVec 16) (bytes : List Byte) (l : Load), s.ready → s.mode = .commission →
    1 ≤ bytes.length → bytes.length ≤ 200 → s.metrology.load = some l → s.rm.wf = true →
    if offset.toNat = l.received ∧ l.received + bytes.length ≤ l.total then
      ∃ t : State, exec (.loadImageData offset bytes) s = .next t ∧
        t.metrology = { s.metrology with load := some ⟨l.total, l.received + bytes.length⟩ } ∧
        (∀ (i : Nat) (h : i < bytes.length),
          Mem.read (t.rm.area s.rm.staging) (l.received + i) = bytes[i]) ∧
        (∀ a : Nat, a < l.received ∨ l.received + bytes.length ≤ a →
          Mem.read (t.rm.area s.rm.staging) a = Mem.read (s.rm.area s.rm.staging) a) ∧
        t.rm = s.rm.setArea s.rm.staging (t.rm.area s.rm.staging) ∧
        answered t 0x01 .accepted [] ∧ onlyChanges [.metrology, .rm, .exchange] s t
    else
      ∃ t : State, exec (.loadImageData offset bytes) s = .next t ∧
        answered t 0x01 .invalid [.num 4 l.received] ∧ onlyChanges [.exchange] s t)

/-- LOAD_IMAGE END before every byte has come is INVALID and changes nothing; an image that fails a check
ends the load with INVALID and the position, and the record memory stands. Of a sound image, a change of
the metrology section without the calibration switch closed is LOCKED and leaves the record memory as it
was; otherwise the selector names the staged image, with the old count or one more, baselines once set
stand, and a calibration leaves a record unless no slot is free. The values in use stay (R167, R168,
R135). Which position a fault of the header gives is the model's (log entry 18), and so is that the count
after 4,294,967,295 is 0: the wrap of the clause on the new count is the model's choice (log entry 35), R168
saying only the old count + 1. -/
def Obligations.LoadEndDecidesByTheSwitch : Prop :=
  (∀ (s : State) (l : Load), s.ready → s.mode = .commission → s.metrology.load = some l →
    (l.received < l.total → ∃ t : State, exec .loadImageEnd s = .next t ∧
      answered t 0x01 .invalid [] ∧ onlyChanges [.exchange] s t) ∧
    (∀ k : Nat, l.total ≤ l.received → s.rm.stagedFault = some k → ∃ t : State,
      exec .loadImageEnd s = .next t ∧ t.metrology = { s.metrology with load := none } ∧
      answered t 0x01 .invalid [.num 4 k] ∧ onlyChanges [.metrology, .exchange] s t)) ∧
  ∀ (s : State) (l : Load), s.ready → s.mode = .commission → s.metrology.load = some l →
    l.total ≤ l.received → s.rm.wf = true → s.rm.stagedFault = none →
    if s.rm.calibrates = true ∧ s.metrology.cal ≠ some true then
      ∃ t : State, exec .loadImageEnd s = .next t ∧
        t.metrology = { s.metrology with load := none } ∧ answered t 0x01 .locked [] ∧
        onlyChanges [.metrology, .exchange] s t
    else
      ∃ t : State, exec .loadImageEnd s = .next t ∧
        t.metrology = { s.metrology with load := none } ∧
        t.rm.selector = some s.rm.staging ∧
        Mem.readBe (t.rm.area s.rm.staging) 16 4 =
          (if s.rm.calibrates then (s.rm.oldMetrology.1 + 1) % 4294967296 else s.rm.oldMetrology.1) ∧
        (∀ (c : CompId) (b : Baseline), s.rm.baselines[c] = some b → t.rm.baselines[c] = some b) ∧
        t.journal.held = s.journal.held +
          (if s.rm.calibrates = true ∧ s.freeSlots ≠ 0 then 1 else 0) ∧
        t.port.response.result = .accepted ∧
        onlyChanges [.metrology, .rm, .ring, .exchange, .attention, .flags] s t

/-! ### Modes, time, parking -/

/-- COMMISSION turns the receiver off, empties the receive ring and ends JAMMED and DUPLICATE_ID, and the
counters keep their values (R169, R88); SET_TIME sets site time to the value given and changes nothing
else (R117). START without a site time is refused with TIME_NOT_SET (R172). -/
def Obligations.StandbyTakesCommissionAndTheTime : Prop :=
  (∀ s : State, s.ready → s.mode = .standby → ∃ t : State,
    exec .commission s = .next t ∧ t.mode = .commission ∧ t.link.rx = .off ∧ t.link.ring = [] ∧
    t.link.frame = [] ∧ t.link.jammed = false ∧ t.link.duplicate = false ∧
    t.link.counters = s.link.counters ∧ t.link.queue = s.link.queue ∧
    t.link.nextSeq = s.link.nextSeq ∧ answered t 0x02 .accepted [] ∧
    onlyChanges [.mode, .link, .exchange] s t) ∧
  (∀ (s : State) (time : BitVec 32), s.ready → s.mode = .standby → ∃ t : State,
    exec (.setTime time) s = .next t ∧
    t.peers = { s.peers with siteTime := some time.toNat } ∧ answered t 0x03 .accepted [] ∧
    onlyChanges [.peers, .exchange] s t) ∧
  (∀ s : State, s.ready → s.mode = .standby → s.peers.siteTime = none → ∃ t : State,
      exec .start s = .next t ∧ answered t 0x04 .timeNotSet [] ∧ onlyChanges [.exchange] s t)

/-- START with the site time set derives the shift from it and enters RUN, with the tally timer and warm-up
begun, the start code as the running reference and a metrology check begun (R172, R119, R121, R173). It
rebuilds the own shift totals from the CLOSED deliveries of that shift whose machine is in the roster, and
the account totals and the shift figures from the same records and the VOID records, voided deliveries
counting in the figures alone (R69, R161). It queues a CLOSE for each recovered delivery of a roster
machine, in ascending order of journal seq, with the total as rebuilt (R90), and an urgent tally part (R122,
R99). Each present compartment's probe is sampled and its quiet timer started; that the sample reads what
the probe lines were last said to give is the model's choice (R129, R138; log entry 14). An IDLE point whose
switch shows a lift or a coupling closure takes it (R21, R42). The restock request is evaluated after the
CLOSEs, under the shift derived, its bulletin taking the next number (R140, R141, R143, R145); when an own entry
out of the queue is offered again is the model's reading (log entry 16). -/
def Obligations.StartEntersRun : Prop :=
  ∀ (s : State) (time : Nat), s.ready → s.mode = .standby → s.peers.siteTime = some time →
    s.metrology.checking = false → ∃ t : State, exec .start s = .next t ∧
      (let shift := clockShift s.params.shiftStarts time
       (t.mode = .run ∧ t.peers.shift = some shift ∧ t.peers.siteTime = some time ∧
         t.peers.tallyTimer = true ∧ t.peers.warmUp = true ∧ t.peers.pendingCount = 0 ∧
         t.metrology.reference = s.metrology.startCode ∧ t.metrology.checking = true ∧
         t.metrology.timer = some 3600 ∧ t.metrology.status = s.metrology.status ∧
         t.metrology.recovery = [] ∧ t.stock.startedAt = some time ∧ t.rm = s.rm ∧
         answered t 0x04 .accepted [.num 4 shift, .num 1 s.metrology.epoch]) ∧
       ((∀ fleet : Nat, t.allowance.ownTotal fleet =
           if (s.machineByFleet fleet).isSome = true then
             min 2147483647 (((s.deliveriesOf shift).filter (fun x => x.2.fleet.getD 0 = fleet)).map
               (fun x => x.2.net.toNat)).sum
           else 0) ∧
         t.allowance = { s.allowance with own := t.allowance.own } ∧
         (∀ a : Fin 32, t.journal.accounts[a] =
           (let xs := (s.deliveriesOf shift).filter
             (fun x => x.1.voided = false ∧ x.2.account.getD 0 = a.val + 1)
            ⟨(xs.map (fun x => x.2.net)).sum, (xs.map (fun x => x.2.cost.getD 0)).sum, xs.length⟩)) ∧
         (∀ q : Fin 8, t.journal.figures.nets[q] =
           (((s.deliveriesOf shift).filter (fun x => x.2.product = q.val + 1)).map
             (fun x => x.2.net)).sum) ∧
         t.journal.figures.deliveries = (s.deliveriesOf shift).length ∧
         t.journal.figures.voids = (s.ring.filter (fun x =>
           x.2.closed && decide (x.2.shift = some shift) &&
             match x.2.body with
             | .void _ => true
             | _ => false)).length) ∧
       (s.link.queue = [] → s.peers.round = none → s.peers.tallyTimer = false →
         s.metrology.recovery.length ≤ 4 → (s.ring.map (fun x => x.2.seq)).Nodup →
         (t.link.queue.filterMap (fun q =>
           match q.bulletin.body with
           | .closeFill .. => some (q.bulletin.shift, q.bulletin.body)
           | _ => none)) =
           (s.ring.filterMap (fun x =>
             match x.2.body with
             | .fill false f =>
               if x.2.seq ∈ s.metrology.recovery ∧
                   (s.machineByFleet (f.fleet.getD 0)).isSome = true then
                 some (shift, BulletinBody.closeFill (f.fleet.getD 0)
                   (t.allowance.ownTotal (f.fleet.getD 0)) f.net.toNat (f.point.val + 1))
               else none
             | _ => none)) ∧
         (∃ (q : Queued) (rest : List Queued), t.link.queue = q :: rest ∧ q.urgent = true ∧
           ∃ (parts : Nat) (fr : Option Nat) (es : List (Nat × Nat)),
             q.bulletin.body = .tally s.peers.nextRound 0 parts fr es ∧ q.bulletin.shift = shift) ∧
         let closes := (s.ring.filter (fun x => match x.2.body with
           | .fill false f => decide (x.2.seq ∈ s.metrology.recovery) &&
               (s.machineByFleet (f.fleet.getD 0)).isSome
           | _ => false)).length
         let stock := { s.port.attention.stock with probe := t.port.attention.stock.probe }
         ∃ fraction : Nat, RestockEvaluated false fraction
           (if closes = 0 then s.link.nextSeq else (s.link.nextSeq + closes) % 256)
           { s with
             peers := { s.peers with shift := some shift }
             port := { s.port with attention := { s.port.attention with stock := stock } } } t) ∧
       (∀ (c : CompId) (k : CompParams), s.cp c = some k →
         SampleTaken c k s.stock.probeLines[c] (some time) s t ∧
           (t.comp c).quiet = some 0 ∧ (t.comp c).book = (s.comp c).book) ∧
       (∀ p : PointId, t.switchAt p = s.switchAt p) ∧ LevelsTaken s t)

/-- PARK takes effect at once when every point is IDLE and is pending otherwise; the parameters given
replace those in use; a poll code above 15 is INVALID (R185, R186). The names in the responses are the
model's (log entry 23), and so is that bits 4 to 6 of the wake byte are passed over (log entry 36). -/
def Obligations.ParkWaitsForEveryPoint : Prop :=
  ∀ (s : State) (poll wake : Byte), s.ready → s.mode = .run →
    if poll ≠ 0xFF ∧ poll.toNat > 15 then
      ∃ t : State, exec (.park poll wake) s = .next t ∧ answered t 0x05 .invalid [] ∧
        onlyChanges [.exchange] s t
    else
      ∃ t : State, exec (.park poll wake) s = .next t ∧
        t.port.pollCode = (if poll = 0xFF then s.port.pollCode else poll.toNat) ∧
        (∀ p : PointId, t.port.wakeEnables[p] =
          if wake.getLsbD 7 then wake.getLsbD p.val else s.port.wakeEnables[p]) ∧
        if s.allIdle = true then
          t.mode = .parked ∧ t.port.parkPending = false ∧
            answered t 0x05 .accepted [.name (.said .parked)] ∧
            (∀ p, t.switchAt p = s.switchAt p) ∧
            onlyChanges [.mode, .scanner, .park, .exchange] s t
        else
          t.port.parkPending = true ∧ answered t 0x05 .accepted [.name (.said .parkPending)] ∧
            onlyChanges [.park, .exchange] s t

/-- WAKE in PARKED enters RUN and sets WOKE with the request as its reason; in RUN it cancels a pending
park, or changes nothing. In PARKED a change of a point switch whose wake enable is set enters RUN with the
point as its reason; one of a switch not enabled leaves the mode. At either wake the meter inputs are powered
(R46), and every IDLE point whose switch shows a lift or a coupling closure, one moved while PARKED among
them, takes it (R187, R186, R21, R42). The names in the responses are the model's (log entry 23). -/
def Obligations.WakeReturnsToRun : Prop :=
  (∀ s : State, s.ready → s.mode = .parked → ∃ t : State,
    exec .wake s = .next t ∧ t.mode = .run ∧ t.port.woke = true ∧
    t.port.wakeReason = some .request ∧ answered t 0x06 .accepted [.name (.said .woken)] ∧
    (∀ p, t.switchAt p = s.switchAt p) ∧ LevelsTaken s t ∧ OthersStand s t ∧
    (∀ p, t.meter p = { s.meter p with phase := (s.meter p).pin }) ∧
    onlyChanges ([.mode, .scanner, .restarts, .exchange, .attention] ++ everyPoint ++ everyLine ++
      everyMeter) s t) ∧
  (∀ s : State, s.ready → s.mode = .run → s.port.parkPending = true → ∃ t : State,
    exec .wake s = .next t ∧ t.port.parkPending = false ∧ t.port.pollCode = s.port.pollCode ∧
    answered t 0x06 .accepted [.name (.said .parkCancelled)] ∧ onlyChanges [.park, .exchange] s t) ∧
  (∀ s : State, s.ready → s.mode = .run → s.port.parkPending = false → ∃ t : State,
    exec .wake s = .next t ∧ answered t 0x06 .accepted [.name (.said .modeWasRun)] ∧
    onlyChanges [.exchange] s t) ∧
  ∀ (s : State) (levels : SwitchLevels) (p : PointId) (v : Bool), s.powered = true → s.mode = .parked →
    s.scanner.reports s.runNeeded levels = [.point p (.change v)] →
    (s.port.wakeEnables[p] = true → ∃ t : State, exec (.switchSample levels) s = .next t ∧
      t.mode = .run ∧ t.port.woke = true ∧ t.port.wakeReason = some (.switch p) ∧
      t.switchAt p = some v ∧ (∀ x : PointId, x ≠ p → t.switchAt x = s.switchAt x) ∧
      LevelsTaken s t ∧ OthersStand s t ∧
      (∀ x, t.meter x = { s.meter x with phase := (s.meter x).pin }) ∧
      t.port.restartReason = s.port.restartReason ∧ t.port.restarted = s.port.restarted ∧
      onlyChanges ([.mode, .scanner, .restarts, .attention] ++ everyPoint ++ everyLine ++ everyMeter) s t) ∧
    (s.port.wakeEnables[p] = false → (s.point p).state = .idle → ∃ t : State,
      exec (.switchSample levels) s = .next t ∧ t.mode = .parked ∧ t.switchAt p = some v ∧
      (∀ x : PointId, x ≠ p → t.switchAt x = s.switchAt x) ∧ onlyChanges [.scanner] s t)

/-! ### Points and their requests -/

/-- CONFIRM of an OFFERED point whose checks pass opens the fill with the volume asked for, or the
minimum fill where that is more. The preset of a delivery is the least of its terms, that of a receipt the
least of the request, the space and 20,000,000 mL. The OPEN record is written at the write position and the
channel starts counting from zero; a delivery latches the price, adds an open-preset entry and queues its
OPEN bulletin with the preset as the hold volume, which in a full queue displaces the oldest TALLY part or else
the oldest bulletin not in SENDING (R94); a receipt leaves allowances and link alone (R25, R26, R42,
R70, R82, R89, R92, R150, R152). The first check that fails sends the point to REFUSED with its reason, gives
the slot back and answers REFUSED with the reason (R25, R42, R83, R150); a point in any other state answers
WRONG_STATE, an UNUSED one WRONG_ROLE (R25, R17), a point outside 1..4 INVALID (R192). A part of the tally round in progress
that is displaced brings the next part, or ends the round (R93, R124, R125). The requested volume is read as
unsigned, the model's choice (log entry 34). -/
def Obligations.ConfirmOpensAFill : Prop :=
  (∀ (s : State) (b : Byte) (p : PointId) (volume : BitVec 32) (operator : BitVec 16)
    (m : RosterRecord) (n : Nat),
    s.ready → s.mode = .run → pointOf b = some p → s.role p = .delivery →
    (s.point p).state = .offered → (s.point p).ctx.machine = some m →
    s.receiptOpen (s.compartmentOf p) = false → s.freeSlots > 4 →
    s.presetOf p m (max volume.toNat (s.pp p).minFill) = n → (s.pp p).minFill ≤ n →
    ∃ t : State, exec (.confirm b volume operator) s = .next t ∧
      (t.point p).state = .priming ∧
      (t.point p).timers = { PointTimers.stopped with prime := true, noFlow := true } ∧
      (t.point p).ctx = { (s.point p).ctx with
        request := some (max volume.toNat (s.pp p).minFill), operator := some operator.toNat,
        preset := some n, price := some (s.priceFor p), slot := some s.journal.writePosition,
        seq := some s.journal.nextSeq } ∧
      t.allowance = { s.allowance with
        openPresets := s.allowance.openPresets ++ [⟨p, m.fleet, n⟩] } ∧
      t.journal.held = s.journal.held + 1 ∧ t.journal.nextSeq = s.journal.nextSeq + 1 ∧
      t.journal.setAside = s.journal.setAside ∧
      (∃ (r : Record) (f : FillRecord),
        slotAt t.rm.slots s.journal.writePosition = some ⟨true, r⟩ ∧
        r.seq = s.journal.nextSeq ∧ r.closed = false ∧ r.shift = s.peers.shift ∧
        r.time = s.peers.siteTime ∧ r.body = .fill false f ∧ f.point = p ∧
        f.fleet = some m.fleet ∧ f.account = some m.account ∧ f.price = some (s.priceFor p) ∧
        f.preset = n ∧ f.operator = operator.toNat) ∧
      (∀ k, k ≠ s.journal.writePosition → slotAt t.rm.slots k = slotAt s.rm.slots k) ∧
      (t.meter p).counting = true ∧ (t.meter p).live = 0 ∧ (t.meter p).c = 0 ∧
      (t.comp (s.compartmentOf p)).quiet = none ∧
      (t.comp (s.compartmentOf p)).book = (s.comp (s.compartmentOf p)).book ∧
      (s.peers.round = none → s.link.queue.length ≤ 6 → ∃ x ∈ t.link.queue, x.urgent = false ∧
        x.bulletin = ⟨s.params.siteCode, s.params.stationId, s.metrology.epoch, s.link.nextSeq,
          s.shiftNo, .openFill m.fleet n s.params.maxFill (p.val + 1)⟩) ∧
      (s.peers.round = none → s.link.queue.length = 8 → s.link.tx ≠ .off → s.link.tx ≠ .idle →
        (∀ x ∈ s.link.queue.tail.head?, x.busy < 7) → ∃ v : Queued, QueuedInFull
          ⟨s.params.siteCode, s.params.stationId, s.metrology.epoch, s.link.nextSeq, s.shiftNo,
            .openFill m.fleet n s.params.maxFill (p.val + 1)⟩ v s t) ∧
      (∀ (v : Queued) (r : Round), s.link.queue.length = 8 → v ∈ s.link.queue →
        (s.link.tx = .sending → s.link.queue.head? ≠ some v) → s.partOfRound v.bulletin r →
        (∀ y ∈ s.link.queue, y ≠ v → ∀ (k i c : Nat) (fr : Option Nat) (es : List (Nat × Nat)),
          y.bulletin.body ≠ .tally k i c fr es) →
        (∃ x ∈ t.link.queue, x.bulletin.body = .openFill m.fleet n s.params.maxFill (p.val + 1) ∧
          x.bulletin.seq = s.link.nextSeq) ∧
        if r.next < r.parts then
          t.peers = { s.peers with round := some { r with next := r.next + 1 } } ∧
            ∃ x ∈ t.link.queue, x.urgent = r.urgent ∧
              x.bulletin.body = s.partBody r r.next ∧ x.bulletin.seq = (s.link.nextSeq + 1) % 256
        else t.peers = { s.peers with round := none }) ∧
      answered t 0x07 .accepted [.num 4 n, .num 4 s.journal.nextSeq] ∧
      onlyChanges [.point p, .line p, .meter p, .allowance, .link, .peers,
        .comp (s.compartmentOf p), .ring, .checkpoints, .rm, .exchange, .attention, .flags] s t) ∧
  (∀ (s : State) (b : Byte) (p : PointId) (volume : BitVec 32) (operator : BitVec 16) (n : Nat),
    s.ready → s.mode = .run → pointOf b = some p → s.role p = .receipt →
    (s.point p).state = .offered → s.receiptOpen (s.compartmentOf p) = false → s.freeSlots > 4 →
    s.probeFull (s.compartmentOf p) = false →
    min (min (max volume.toNat (s.pp p).minFill) (s.space (s.compartmentOf p))) 20000000 = n →
    (s.pp p).minFill ≤ n →
    ∃ t : State, exec (.confirm b volume operator) s = .next t ∧
      (t.point p).state = .priming ∧ (t.point p).ctx.preset = some n ∧
      (t.point p).ctx.price = (s.point p).ctx.price ∧
      t.journal.held = s.journal.held + 1 ∧ t.journal.nextSeq = s.journal.nextSeq + 1 ∧
      (∃ (r : Record) (f : FillRecord),
        slotAt t.rm.slots s.journal.writePosition = some ⟨true, r⟩ ∧
        r.seq = s.journal.nextSeq ∧ r.closed = false ∧ r.body = .fill true f ∧ f.preset = n) ∧
      (∀ k, k ≠ s.journal.writePosition → slotAt t.rm.slots k = slotAt s.rm.slots k) ∧
      (t.meter p).counting = true ∧ (t.meter p).live = 0 ∧ (t.meter p).c = 0 ∧
      (t.comp (s.compartmentOf p)).book = (s.comp (s.compartmentOf p)).book ∧
      answered t 0x07 .accepted [.num 4 n, .num 4 s.journal.nextSeq] ∧
      onlyChanges [.point p, .line p, .meter p, .comp (s.compartmentOf p), .ring, .checkpoints, .rm,
        .exchange, .attention, .flags] s t) ∧
  (∀ (s : State) (b : Byte) (p : PointId) (volume : BitVec 32) (operator : BitVec 16)
    (r : RefusalReason), s.ready → s.mode = .run → pointOf b = some p → (s.point p).state = .offered →
    s.waits p →
    (s.role p = .delivery ∧ ∃ m : RosterRecord, (s.point p).ctx.machine = some m ∧
      s.firstRefusal p m (max volume.toNat (s.pp p).minFill) = some r) ∨
      (s.role p = .receipt ∧ s.firstReceiptRefusal p (max volume.toNat (s.pp p).minFill) = some r) →
    ∃ t : State, exec (.confirm b volume operator) s = .next t ∧
      (t.point p).state = .refused ∧ (t.point p).timers = PointTimers.stopped ∧
      (t.point p).ctx = { (s.point p).ctx with refusal := some r } ∧
      t.port.attention.points[p] = some (.refused r) ∧
      t.journal.setAside = s.journal.setAside ∧ t.journal.held = s.journal.held ∧
      t.journal.nextSeq = s.journal.nextSeq ∧ answered t 0x07 .refused [.num 1 r.code] ∧
      onlyChanges [.point p, .line p, .ring, .exchange, .attention, .flags] s t) ∧
  (∀ (s : State) (b : Byte) (p : PointId) (volume : BitVec 32) (operator : BitVec 16),
    s.ready → s.mode = .run → pointOf b = some p → s.role p = .unused ∨ (s.point p).state ≠ .offered →
    ∃ t : State, exec (.confirm b volume operator) s = .next t ∧
      answered t 0x07 (if s.role p = .unused then .wrongRole else .wrongState) [] ∧
      onlyChanges [.exchange] s t) ∧
  (∀ (s : State) (b : Byte) (volume : BitVec 32) (operator : BitVec 16), s.ready → s.mode = .run →
    b.toNat = 0 ∨ 4 < b.toNat → ∃ t : State, exec (.confirm b volume operator) s = .next t ∧
      answered t 0x07 .invalid [] ∧ onlyChanges [.exchange] s t)

/-- MANUAL_ID naming a machine that may draw from an IDENT delivery point makes the offer of the least of its
terms and is answered ACCEPTED; on an auto-confirm point its fill opens at once, with the default preset as
its request and no operator. The first check of the offer that fails sends a point that waits to REFUSED with
its reason, the machine named, and the answer is ACCEPTED, the lookup having found it. A fleet number no record
carries, a barred machine and one without the point's product send a point that waits to REFUSED with
UNKNOWN_TAG, BARRED and WRONG_PRODUCT, and are answered so (R16, R22, R23, R82, R83). A delivery point in another
state answers WRONG_STATE, a point of another role WRONG_ROLE, a point outside 1..4 INVALID (R22, R17, R192). -/
def Obligations.ManualIdMakesAnOffer : Prop :=
  (∀ (s : State) (b : Byte) (p : PointId) (fleet : BitVec 16) (m : RosterRecord) (q : Fin 8) (n : Nat),
    s.ready → s.mode = .run → pointOf b = some p → s.role p = .delivery →
    (s.point p).state = .ident → s.machineByFleet fleet.toNat = some m → m.barred = false →
    s.productAt p = q.val + 1 → m.products.getLsbD q.val = true →
    s.receiptOpen (s.compartmentOf p) = false → s.freeSlots > 4 →
    s.presetOf p m (s.pp p).defaultPreset = n → (s.pp p).minFill ≤ n →
    (s.pp p).autoConfirm = false →
    ∃ t : State, exec (.manualId b fleet) s = .next t ∧ (t.point p).state = .offered ∧
      (t.point p).timers = { PointTimers.stopped with confirm := true } ∧
      (t.point p).ctx = { FillContext.empty with machine := some m, manual := true, offer := some n } ∧
      t.port.attention.points[p] = some (.offer n) ∧ answered t 0x08 .accepted [] ∧
      onlyChanges [.point p, .line p, .exchange, .attention] s t) ∧
  (∀ (s : State) (b : Byte) (p : PointId) (fleet : BitVec 16) (m : RosterRecord) (q : Fin 8)
    (r : RefusalReason), s.ready → s.mode = .run → pointOf b = some p → s.role p = .delivery →
    (s.point p).state = .ident → s.machineByFleet fleet.toNat = some m → m.barred = false →
    s.productAt p = q.val + 1 → m.products.getLsbD q.val = true → s.waits p →
    s.firstRefusal p m (s.pp p).defaultPreset = some r →
    ∃ t : State, exec (.manualId b fleet) s = .next t ∧ (t.point p).state = .refused ∧
      (t.point p).ctx = { FillContext.empty with
        named := some (m.fleet, m.account), refusal := some r } ∧
      t.port.attention.points[p] = some (.refused r) ∧ answered t 0x08 .accepted [] ∧
      onlyChanges [.point p, .line p, .exchange, .attention] s t) ∧
  (∀ (s : State) (b : Byte) (p : PointId) (fleet : BitVec 16),
    s.ready → s.mode = .run → pointOf b = some p → s.role p = .delivery →
    (s.point p).state = .ident → s.machineByFleet fleet.toNat = none → s.waits p →
    ∃ t : State, exec (.manualId b fleet) s = .next t ∧ (t.point p).state = .refused ∧
      (t.point p).ctx = { FillContext.empty with refusal := some .unknownTag } ∧
      t.port.attention.points[p] = some (.refused .unknownTag) ∧
      answered t 0x08 .refused [.num 1 1] ∧ onlyChanges [.point p, .line p, .exchange, .attention] s t) ∧
  (∀ (s : State) (b : Byte) (p : PointId) (fleet : BitVec 16) (m : RosterRecord) (q : Fin 8),
    s.ready → s.mode = .run → pointOf b = some p → s.role p = .delivery →
    (s.point p).state = .ident → s.machineByFleet fleet.toNat = some m → s.productAt p = q.val + 1 →
    m.barred = true ∨ m.products.getLsbD q.val = false → s.waits p →
    ∃ t : State, exec (.manualId b fleet) s = .next t ∧
      (let r : RefusalReason := if m.barred = true then .barred else .wrongProduct
       (t.point p).state = .refused ∧
        (t.point p).ctx = { FillContext.empty with
          named := some (m.fleet, m.account), refusal := some r } ∧
        t.port.attention.points[p] = some (.refused r)) ∧
      answered t 0x08 .refused [.num 1 (if m.barred = true then 2 else 3)] ∧
      onlyChanges [.point p, .line p, .exchange, .attention] s t) ∧
  (∀ (s : State) (b : Byte) (p : PointId) (fleet : BitVec 16) (m : RosterRecord) (q : Fin 8),
    s.ready → s.mode = .run → pointOf b = some p → s.role p = .delivery →
    (s.point p).state = .ident → s.machineByFleet fleet.toNat = some m → m.barred = false →
    s.productAt p = q.val + 1 → m.products.getLsbD q.val = true →
    s.firstRefusal p m (s.pp p).defaultPreset = none → (s.pp p).autoConfirm = true →
    ∃ t : State, exec (.manualId b fleet) s = .next t ∧ (t.point p).state = .priming ∧
      (t.point p).timers = { PointTimers.stopped with prime := true, noFlow := true } ∧
      (t.point p).ctx = { FillContext.empty with
        machine := some m, manual := true
        offer := some (s.presetOf p m (s.pp p).defaultPreset)
        request := some (max (s.pp p).defaultPreset (s.pp p).minFill)
        operator := some 0
        preset := some (s.presetOf p m (max (s.pp p).defaultPreset (s.pp p).minFill))
        price := some (s.priceFor p), slot := some s.journal.writePosition,
        seq := some s.journal.nextSeq } ∧
      (t.meter p).counting = true ∧ (t.meter p).live = 0 ∧
      t.journal.nextSeq = s.journal.nextSeq + 1 ∧ t.journal.held = s.journal.held + 1 ∧
      (∃ (r : Record) (f : FillRecord),
        slotAt t.rm.slots s.journal.writePosition = some ⟨true, r⟩ ∧
        r.seq = s.journal.nextSeq ∧ r.closed = false ∧ r.body = .fill false f ∧ f.point = p ∧
        f.fleet = some m.fleet ∧ f.manual = true ∧ f.operator = 0) ∧
      (∀ k, k ≠ s.journal.writePosition → slotAt t.rm.slots k = slotAt s.rm.slots k) ∧
      answered t 0x08 .accepted [] ∧
      onlyChanges [.point p, .line p, .meter p, .allowance, .link, .peers,
        .comp (s.compartmentOf p), .ring, .checkpoints, .rm, .exchange, .attention, .flags] s t) ∧
  (∀ (s : State) (b : Byte) (p : PointId) (fleet : BitVec 16), s.ready → s.mode = .run →
    pointOf b = some p → s.role p ≠ .delivery ∨ (s.point p).state ≠ .ident →
    ∃ t : State, exec (.manualId b fleet) s = .next t ∧
      answered t 0x08 (if s.role p = .delivery then .wrongState else .wrongRole) [] ∧
      onlyChanges [.exchange] s t) ∧
  (∀ (s : State) (b : Byte) (fleet : BitVec 16), s.ready → s.mode = .run → b.toNat = 0 ∨ 4 < b.toNat →
    ∃ t : State, exec (.manualId b fleet) s = .next t ∧ answered t 0x08 .invalid [] ∧
      onlyChanges [.exchange] s t)

/-- STOP ends an open fill with STOPPED, sends a waiting IDENT or OFFERED point to REFUSED with STOPPED, and
one that already shows HOLSTERED or OPEN on to IDLE (R40), leaves a CLOSING point as it is, and is refused with
WRONG_STATE in every other state (R33). RESTORE returns an OUT_OF_SERVICE point to IDLE with its context emptied
when its switch shows it at rest, and is refused with NOT_HOLSTERED otherwise (R41). A pending park takes effect
as the last point that is not IDLE enters IDLE (R185, R186). The name in the response of a CLOSING point is the model's
(log entry 23). -/
def Obligations.StopAndRestoreActOnAPoint : Prop :=
  (∀ (s : State) (b : Byte) (p : PointId), s.ready → s.mode = .run ∨ s.mode = .halted →
    pointOf b = some p → s.role p ≠ .unused →
    ∃ t : State, exec (.stop b) s = .next t ∧
      match (s.point p).state with
      | .priming | .flowing | .slowing | .paused =>
        (t.point p).state = .closing ∧
          (t.point p).ctx = { (s.point p).ctx with endReason := some .stopped } ∧
          (t.point p).timers = { PointTimers.stopped with settle := true, closeTimeout := true } ∧
          answered t 0x09 .accepted [] ∧ onlyChanges [.point p, .line p, .exchange] s t
      | .ident | .offered =>
        t.port.attention.points[p] = some (.refused .stopped) ∧ answered t 0x09 .accepted [] ∧
          (s.waits p → (t.point p).state = .refused ∧ (t.point p).ctx.refusal = some .stopped ∧
            onlyChanges [.point p, .line p, .exchange, .attention] s t) ∧
          (s.switchAt p = some false → (t.point p).state = .idle ∧
            (t.point p).ctx = FillContext.empty ∧ ParkFollows p s t ∧
            (∀ x : PointId, t.switchAt x = s.switchAt x) ∧
            onlyChanges [.point p, .line p, .exchange, .attention, .mode, .park, .scanner] s t)
      | .closing =>
        answered t 0x09 .accepted [.name (.pointState .closing)] ∧ onlyChanges [.exchange] s t
      | .idle | .ended | .refused | .outOfService =>
        answered t 0x09 .wrongState [] ∧ onlyChanges [.exchange] s t) ∧
  (∀ (s : State) (b : Byte) (p : PointId), s.ready → s.mode = .run ∨ s.mode = .halted →
    pointOf b = some p → s.role p ≠ .unused → (s.point p).state = .outOfService →
    if s.switchAt p = some false then
      ∃ t : State, exec (.restore b) s = .next t ∧ (t.point p).state = .idle ∧
        (t.point p).ctx = FillContext.empty ∧ (t.point p).outMark = false ∧
        ParkFollows p s t ∧ (∀ x : PointId, t.switchAt x = s.switchAt x) ∧
        answered t 0x0A .accepted [] ∧
        onlyChanges [.point p, .line p, .exchange, .mode, .park, .scanner] s t
    else
      ∃ t : State, exec (.restore b) s = .next t ∧ answered t 0x0A .notHolstered [] ∧
        onlyChanges [.exchange] s t) ∧
  (∀ (s : State) (b : Byte) (p : PointId), s.ready → s.mode = .run ∨ s.mode = .halted →
    pointOf b = some p →
    (s.role p = .unused → ∃ t : State, exec (.stop b) s = .next t ∧ answered t 0x09 .wrongRole [] ∧
      onlyChanges [.exchange] s t) ∧
    (s.role p = .unused ∨ (s.point p).state ≠ .outOfService →
      ∃ t : State, exec (.restore b) s = .next t ∧
        answered t 0x0A (if s.role p = .unused then .wrongRole else .wrongState) [] ∧
        onlyChanges [.exchange] s t)) ∧
  (∀ (s : State) (b : Byte), s.ready → s.mode = .run ∨ s.mode = .halted → b.toNat = 0 ∨ 4 < b.toNat →
    (∃ t : State, exec (.stop b) s = .next t ∧ answered t 0x09 .invalid [] ∧
      onlyChanges [.exchange] s t) ∧
    ∃ t : State, exec (.restore b) s = .next t ∧ answered t 0x0A .invalid [] ∧
      onlyChanges [.exchange] s t)

/-! ### Prices and the journal -/

/-- SET_PRICE of a product 1..8 at most 99,999 writes the pending table while PRICE_HOLD is set and the
current table while it is clear, at that product alone; otherwise it is INVALID (R162). HOLD_PRICES copies
the current table into the pending table and sets the hold; RELEASE_PRICES copies it back and clears the
hold; each changes nothing the second time (R163). The names in the responses are the model's (log entry
23). -/
def Obligations.PriceRequestsWriteTheTables : Prop :=
  (∀ (s : State) (product : Byte) (price : BitVec 32), s.ready →
    takenIn (.setPrice product price) s.mode = true →
    ∃ t : State, exec (.setPrice product price) s = .next t ∧
      if h : 1 ≤ product.toNat ∧ product.toNat ≤ 8 ∧ price.toNat ≤ 99999 then
        t.journal = (if s.journal.hold then
            { s.journal with pending := s.journal.pending.set (product.toNat - 1) price.toNat (by omega) }
          else
            { s.journal with
              current := s.journal.current.set (product.toNat - 1) price.toNat (by omega) }) ∧
          t.port.response.result = .accepted ∧ onlyChanges [.prices, .exchange] s t
      else answered t 0x0B .invalid [] ∧ onlyChanges [.exchange] s t) ∧
  (∀ s : State, s.ready → takenIn .holdPrices s.mode = true →
    (∃ t : State, exec .holdPrices s = .next t ∧
      if s.journal.hold = true then
        answered t 0x0C .accepted [.name (.said .holdAlreadySet)] ∧ onlyChanges [.exchange] s t
      else
        t.journal = { s.journal with pending := s.journal.current, hold := true } ∧
          answered t 0x0C .accepted [.name (.said .holdSet)] ∧
          onlyChanges [.prices, .exchange] s t) ∧
    (∃ t : State, exec .releasePrices s = .next t ∧
      if s.journal.hold = true then
        t.journal = { s.journal with current := s.journal.pending, hold := false } ∧
          answered t 0x0D .accepted [.name (.said .released)] ∧
          onlyChanges [.prices, .exchange] s t
      else answered t 0x0D .accepted [.name (.said .noHoldSet)] ∧ onlyChanges [.exchange] s t))

/-- VOID is tested in the order of R156, and the first failing test refuses it and changes nothing. A
record that passes every test is cancelled: a VOID record is appended, the record marked voided, its net,
cost and count taken from the account it carries, and 1 added to the void count; the own totals, the book
stock and the link stand (R156, R160). -/
def Obligations.VoidIsTestedInOrderAndCancelsTheBilling : Prop :=
  (∀ (s : State) (seq : BitVec 32), s.ready → takenIn (.void seq) s.mode = true →
    (∀ e : Result, s.voidTest seq.toNat = .error e → ∃ t : State,
      exec (.void seq) s = .next t ∧ answered t 0x0E e [] ∧ onlyChanges [.exchange] s t) ∧
    match s.findRecord seq.toNat with
    | none => s.voidTest seq.toNat = .error .notFound
    | some (_, r) =>
      match r.body with
      | .fill false _ =>
        if r.closed = false then s.voidTest seq.toNat = .error .wrongKind
        else if s.peers.shift = none ∨ r.shift ≠ s.peers.shift then
          s.voidTest seq.toNat = .error .wrongShift
        else if r.voided = true then s.voidTest seq.toNat = .error .alreadyVoided
        else if s.freeSlots ≤ 4 then s.voidTest seq.toNat = .error .journalFull
        else ∃ x, s.voidTest seq.toNat = .ok x
      | _ => s.voidTest seq.toNat = .error .wrongKind) ∧
  ∀ (s : State) (seq : BitVec 32) (k : Nat) (r : Record) (f : FillRecord) (a : Fin 32),
    s.ready → takenIn (.void seq) s.mode = true → s.voidTest seq.toNat = .ok (k, r, f) →
    f.account = some (a.val + 1) → s.journal.oldest < 4096 →
    ∃ t : State, exec (.void seq) s = .next t ∧
      (∃ v : Record, slotAt t.rm.slots s.journal.writePosition = some ⟨true, v⟩ ∧
        v.seq = s.journal.nextSeq ∧ v.body = .void seq.toNat ∧ v.closed = true ∧
        v.shift = s.peers.shift) ∧
      slotAt t.rm.slots k = some ⟨true, { r with voided := true }⟩ ∧
      (∀ j : Nat, j ≠ k → j ≠ s.journal.writePosition →
        slotAt t.rm.slots j = slotAt s.rm.slots j) ∧
      t.rm = { s.rm with slots := t.rm.slots } ∧
      t.journal.held = s.journal.held + 1 ∧ t.journal.nextSeq = s.journal.nextSeq + 1 ∧
      t.journal.accounts[a] = ⟨s.journal.accounts[a].net - f.net,
        s.journal.accounts[a].cost - f.cost.getD 0, s.journal.accounts[a].count - 1⟩ ∧
      (∀ x : Fin 32, x ≠ a → t.journal.accounts[x] = s.journal.accounts[x]) ∧
      t.journal.figures = { s.journal.figures with voids := s.journal.figures.voids + 1 } ∧
      answered t 0x0E .accepted [.num 4 s.journal.nextSeq] ∧
      onlyChanges [.ring, .totals, .rm, .exchange, .attention, .flags] s t

/-- READ_JOURNAL returns the first matching records above the export cursor, at most the count asked,
moves the cursor to the last of them, clears the JOURNAL cause and changes nothing else; its response
carries the details cleared, at the end, where the model puts them (log entry 23). Outside its ranges it is
INVALID (R157, R164, R182, R191). -/
def Obligations.ReadJournalMovesTheCursor : Prop :=
  ∀ (s : State) (mode filter count : Byte), s.ready →
    takenIn (.readJournal mode filter count) s.mode = true →
    ∃ t : State, exec (.readJournal mode filter count) s = .next t ∧
      if mode.toNat ≤ 1 ∧ filter.toNat ≤ 6 ∧ 1 ≤ count.toNat ∧ count.toNat ≤ 4 then
        (let cursor := if mode = 0 then 0 else s.journal.cursor
         let found := (s.ring.map Prod.snd).filter
           (fun r => decide (r.seq > cursor) && (filter == 0 || r.body.kind.code == filter.toNat))
         let given := found.take count.toNat
         t.journal = { s.journal with cursor := (given.getLast?.map Record.seq).getD cursor } ∧
           t.port.response.result = .accepted ∧
           t.port.response.body.head? = some (.num 1 given.length) ∧
           (∀ r ∈ given, Item.bytes r.image ∈ t.port.response.body)) ∧
          t.port.attention = { s.port.attention with journal := .clear } ∧
          (∃ front : List Item, t.port.response.body = front ++
            [Item.flag s.port.attention.journal.low, Item.flag s.port.attention.journal.full,
             Item.flag s.port.attention.journal.lost]) ∧
          onlyChanges [.cursor, .exchange, .attention] s t
      else answered t 0x0F .invalid [] ∧ onlyChanges [.exchange] s t

/-- EXPORT_DONE marks the leading CLOSED records up to the journal seq given as EXPORTED and releases,
from the oldest on, the records then exported whose shift is past or none: their slots are no longer held,
and each is folded into the baseline of its compartment as it goes. The rest of the ring stays held, no
other slot changes, and the response gives both numbers (R158, R159, R135). That a compartment without a
baseline gets none by a fold is the model's choice (log entry 20). -/
def Obligations.ExportDoneMarksAndReleases : Prop :=
  ∀ (s : State) (seq : BitVec 32), s.ready → takenIn (.exportDone seq) s.mode = true →
    s.journal.held ≤ 4096 → s.journal.oldest < 4096 →
    ∃ t : State, exec (.exportDone seq) s = .next t ∧
      (let upTo (x : Nat × Record) : Bool := decide (x.2.seq ≤ seq.toNat) && x.2.closed
       let marked := (s.ring.takeWhile upTo).filter (fun x => !x.2.exported)
       let ring := (s.ring.takeWhile upTo).map (fun x => (x.1, { x.2 with exported := true })) ++
         s.ring.dropWhile upTo
       let n := (ring.takeWhile (fun x => s.releasable x.2)).length
       t.journal.held = s.journal.held - n ∧ t.journal.oldest = (s.journal.oldest + n) % 4096 ∧
         t.journal.nextSeq = s.journal.nextSeq ∧ t.port.response.result = .accepted ∧
         t.port.response.body.take 2 = [.num 4 marked.length, .num 4 n] ∧
         (∀ x ∈ ring.take n, slotAt t.rm.slots x.1 = some ⟨false, x.2⟩) ∧
         (∀ x ∈ ring.drop n, (slotAt t.rm.slots x.1).map Slot.record = some x.2) ∧
         (∀ x ∈ marked, x.2.seq ≤ seq.toNat ∧ x.2.closed = true) ∧
         (∀ k : Nat, (∀ x ∈ ring, x.1 ≠ k) → slotAt t.rm.slots k = slotAt s.rm.slots k) ∧
         (s.ring.length = s.journal.held → t.ring = ring.drop n) ∧
         (∀ c : CompId, t.rm.baselines[c] = (s.rm.baselines[c]).map (fun b =>
           (ring.take n).foldl (fun v x =>
             match x.2.body with
             | .fill receipt f =>
               if f.compartment = c ∧ x.2.closed = true ∧ v.seq < x.2.seq then
                 ⟨if receipt = true then v.value + f.net else v.value - f.net, x.2.seq⟩
               else v
             | .stocktake y volume =>
               if y = c ∧ v.seq < x.2.seq then ⟨(volume : Int), x.2.seq⟩ else v
             | _ => v) b))) ∧
      t.rm.areaA = s.rm.areaA ∧ t.rm.areaB = s.rm.areaB ∧ t.rm.selector = s.rm.selector ∧
      t.rm.startCounter = s.rm.startCounter ∧
      onlyChanges [.ring, .rm, .exchange, .attention, .flags] s t

/-! ### Stock-take and the link -/

/-- STOCKTAKE that passes its tests writes a STOCKTAKE record, sets the book stock and the baseline to
the volume, the baseline seq to that record's, and settles the variance; the other slots and baselines stand;
the first test that fails refuses it with INVALID, COMPARTMENT_BUSY or JOURNAL_FULL and changes nothing (R134). From START on the own restock request is then evaluated: it becomes active, with a BAY_ASK queued and the
own entry offered, when a compartment is at or below its ask level, and its entry follows the own fraction while
it stays active; turn is reckoned anew as the queue changes, with STOCK attention as it comes to hold (R140, R141,
R143, R145). When an own entry out of the queue is offered again is the model's reading (log entry 16). -/
def Obligations.StocktakeSetsTheBook : Prop :=
  (∀ (s : State) (b : Byte) (volume : BitVec 32) (c : CompId) (k : CompParams), s.ready →
    takenIn (.stocktake b volume) s.mode = true → compOf b.toNat = some c → s.cp c = some k →
    volume.toNat ≤ k.capacity * 1000 → s.fillOpenOn c = false → s.freeSlots ≠ 0 →
    ∃ t : State, exec (.stocktake b volume) s = .next t ∧
      (t.comp c).book = volume.toNat ∧ (t.comp c).varianceCount = 0 ∧ (t.comp c).variance = false ∧
      (s.started = true → (t.comp c).quiet = some 0) ∧
      t.rm.baselines[c] = some ⟨volume.toNat, s.journal.nextSeq⟩ ∧
      (∀ x : CompId, x ≠ c → t.rm.baselines[x] = s.rm.baselines[x]) ∧
      (∀ j : Nat, j ≠ s.journal.writePosition → slotAt t.rm.slots j = slotAt s.rm.slots j) ∧
      t.rm = { s.rm with slots := t.rm.slots, baselines := t.rm.baselines } ∧
      (s.started = true → ∃ fraction : Nat,
        RestockEvaluated false fraction s.link.nextSeq s t) ∧
      (s.started = false → Part.restock.same s t ∧ t.link = s.link ∧ t.peers = s.peers) ∧
      (∃ r : Record, slotAt t.rm.slots s.journal.writePosition = some ⟨true, r⟩ ∧
        r.seq = s.journal.nextSeq ∧ r.body = .stocktake c volume.toNat ∧ r.closed = true) ∧
      t.journal.nextSeq = s.journal.nextSeq + 1 ∧ t.journal.held = s.journal.held + 1 ∧
      answered t 0x11 .accepted [.num 4 s.journal.nextSeq] ∧
      onlyChanges [.comp c, .ring, .rm, .restock, .link, .peers, .exchange, .attention, .flags] s t) ∧
  ∀ (s : State) (b : Byte) (volume : BitVec 32) (e : Result), s.ready →
    takenIn (.stocktake b volume) s.mode = true →
    (match compOf b.toNat with
      | none => e = .invalid
      | some c =>
        match s.cp c with
        | none => e = .invalid
        | some k =>
          if k.capacity * 1000 < volume.toNat then e = .invalid
          else if s.fillOpenOn c = true then e = .compartmentBusy
          else s.freeSlots = 0 ∧ e = .journalFull) →
    ∃ t : State, exec (.stocktake b volume) s = .next t ∧ answered t 0x11 e [] ∧
      onlyChanges [.exchange] s t

/-- PURGE_LINK empties the transmit queue, but for a bulletin in SENDING, and the receive ring, and
counts the bulletins purged (R107). Where the part of the tally round in progress that was queued last is purged,
the next part is queued, or the round ends after the last (R93, R124, R125); otherwise nothing is queued, a part
of an ended round queueing nothing. No new round is due here. -/
def Obligations.PurgeEmptiesTheLink : Prop :=
  (∀ (s : State) (v : Queued) (r : Round), s.ready → takenIn .purgeLink s.mode = true →
    s.peers.pendingCount = 0 → v ∈ (if s.link.tx = .sending then s.link.queue.tail else s.link.queue) →
    s.partOfRound v.bulletin r →
    (∀ y ∈ s.link.queue, ∀ (i c : Nat) (fr : Option Nat) (es : List (Nat × Nat)),
      y.bulletin.body = .tally r.number i c fr es → i < r.next) →
    ∃ t : State, exec .purgeLink s = .next t ∧
      (let kept := if s.link.tx = .sending then s.link.queue.take 1 else []
       if r.next < r.parts then
         t.peers = { s.peers with round := some { r with next := r.next + 1 } } ∧
           t.link.nextSeq = (s.link.nextSeq + 1) % 256 ∧
           ∃ x : Queued, s.isPart r r.next s.link.nextSeq x ∧
             t.link.queue = kept ++ met (s.link.carrier && decide (s.link.tx ≠ .sending ∧
               s.link.tx ≠ .off)) [x]
       else t.peers = { s.peers with round := none } ∧ t.link.queue = kept ∧
         t.link.nextSeq = s.link.nextSeq) ∧
      t.link.ring = [] ∧ t.link.frame = [] ∧
      t.link.counters.purged = min 4294967295 (s.link.counters.purged +
        (if s.link.tx = .sending then s.link.queue.length - 1 else s.link.queue.length)) ∧
      t.port.response.result = .accepted ∧ onlyChanges [.link, .peers, .exchange] s t) ∧
  ∀ s : State, s.ready → takenIn .purgeLink s.mode = true →
    (∀ y ∈ (if s.link.tx = .sending then s.link.queue.tail else s.link.queue), ∀ r : Round,
      ¬ s.partOfRound y.bulletin r) →
    s.peers.pendingCount = 0 ∨ s.peers.round ≠ none → ∃ t : State,
      exec .purgeLink s = .next t ∧
      t.link.queue = (if s.link.tx = .sending then s.link.queue.take 1 else []) ∧
      t.link.ring = [] ∧ t.link.frame = [] ∧ t.link.nextSeq = s.link.nextSeq ∧
      t.link.counters = { s.link.counters with
        purged := min 4294967295 (s.link.counters.purged +
          (if s.link.tx = .sending then s.link.queue.length - 1 else s.link.queue.length)) } ∧
      t.link.jammed = s.link.jammed ∧ t.link.duplicate = s.link.duplicate ∧
      t.port.response.result = .accepted ∧ onlyChanges [.link, .exchange] s t

/-! ### Reads -/

/-- Each clearing read returns what its rule lists, and clears its own cause and changes no other state:
READ_POINT the POINT cause of its point (R44, R67, R13), READ_STOCK the STOCK cause (R146), READ_LINK the LINK
cause (R108), READ_PEERS the peer-lost detail (R126, R182); what the rules leave open of the bodies, such as the
details cleared at their ends, is the model's (log entries 8, 23 and 33).
READ_ACCOUNT and READ_VIEW return what theirs list and change nothing; a point outside 1..4 and an account outside
1..32 are INVALID, a fleet number outside the roster NOT_FOUND (R192, R164, R86). -/
def Obligations.ReadsClearNoMoreThanTheirCause : Prop :=
  (∀ s : State, s.ready → takenIn .readStock s.mode = true →
    (∀ (b : Byte) (p : PointId), pointOf b = some p → ∃ t : State,
      exec (.readPoint b) s = .next t ∧ answered t 0x13 .accepted (s.pointReturned p) ∧
      t.port.attention = { s.port.attention with points := s.port.attention.points.set p none } ∧
      onlyChanges [.exchange, .attention] s t) ∧
    (∀ b : Byte, b.toNat = 0 ∨ 4 < b.toNat → ∃ t : State,
      exec (.readPoint b) s = .next t ∧ answered t 0x13 .invalid [] ∧ onlyChanges [.exchange] s t) ∧
    (∃ (t : State) (fraction : Nat) (rank : Option Nat), exec .readStock s = .next t ∧
      answered t 0x15 .accepted (s.stockReturned fraction rank) ∧ s.ownFractionIs fraction ∧
      (∀ i : Nat, rank = some i ↔
        (∃ x, s.stock.queue[i]? = some x ∧ x.station = s.params.stationId) ∧
          ∀ j x, j < i → s.stock.queue[j]? = some x → x.station ≠ s.params.stationId) ∧
      t.port.attention = { s.port.attention with stock := .clear } ∧
      onlyChanges [.exchange, .attention] s t) ∧
    (∃ t : State, exec .readLink s = .next t ∧ answered t 0x18 .accepted s.linkReturned ∧
      t.port.attention = { s.port.attention with link := .clear } ∧
      onlyChanges [.exchange, .attention] s t) ∧
    (∃ t : State, exec .readPeers s = .next t ∧ answered t 0x17 .accepted s.peersReturned ∧
      t.port.attention =
        { s.port.attention with link := { s.port.attention.link with lost := [] } } ∧
      onlyChanges [.exchange, .attention] s t)) ∧
  (∀ s : State, s.ready → takenIn .readStock s.mode = true →
    (∀ (b : Byte) (a : Fin 32), b.toNat = a.val + 1 → ∃ t : State,
      exec (.readAccount b) s = .next t ∧ answered t 0x14 .accepted (s.accountReturned a) ∧
      onlyChanges [.exchange] s t) ∧
    (∀ b : Byte, b.toNat = 0 ∨ 32 < b.toNat → ∃ t : State,
      exec (.readAccount b) s = .next t ∧ answered t 0x14 .invalid [] ∧ onlyChanges [.exchange] s t) ∧
    (∀ (fleet : BitVec 16) (m : RosterRecord), s.machineByFleet fleet.toNat = some m → ∃ t : State,
      exec (.readView fleet) s = .next t ∧
      answered t 0x16 .accepted (s.viewReturned m (if s.peers.warmUp = true then s.params.gapCap
        else min (s.params.gapReserve * (s.peers.table.toList.map Peer.g).sum) s.params.gapCap)) ∧
      onlyChanges [.exchange] s t) ∧
    (∀ fleet : BitVec 16, s.machineByFleet fleet.toNat = none → ∃ t : State,
      exec (.readView fleet) s = .next t ∧ answered t 0x16 .notFound [] ∧ onlyChanges [.exchange] s t))

/-- READ_ATTENTION returns the pending cause of highest priority with its detail and a list of every
pending cause, and clears nothing; with none pending it returns NONE (R181). The items, that the list is
preceded by its length, and the items of each detail are the model's (log entries 8 and 23). -/
def Obligations.ReadAttentionReturnsTheHighestCause : Prop :=
  ∀ s : State, s.ready → ∃ (t : State) (cause : Cause) (others : List Cause),
    exec .readAttention s = .next t ∧
    cause =
      (if s.port.attention.halt.isSome then .halt
       else if s.port.attention.estop.isSome then .estop
       else if s.port.attention.points[0].isSome then .point 0
       else if s.port.attention.points[1].isSome then .point 1
       else if s.port.attention.points[2].isSome then .point 2
       else if s.port.attention.points[3].isSome then .point 3
       else if s.port.attention.journal.isPending then .journal
       else if s.port.attention.stock.isPending then .stock
       else if s.port.attention.link.isPending then .link
       else .none) ∧
    answered t 0x1A .accepted
      (.name (.cause cause) :: (let a := s.port.attention
        match cause with
        | .none => []
        | .halt => (match a.halt with
          | some c => [.num 4 c.stored.toNat, .num 4 c.memory.toNat, .num 4 c.working.toNat]
          | none => [.none 4, .none 4, .none 4])
        | .estop => (match a.estop with
          | some (some time) => [.num 4 time]
          | _ => [.none 4])
        | .point p => (match a.points[p] with
          | some (.offer volume) => [.name (.detail .offer), .num 4 volume]
          | some (.refused r) => [.name (.detail .refused), .num 1 r.code]
          | some (.ended (some e)) => [.name (.detail .ended), .num 1 e.code]
          | some (.ended none) => [.name (.detail .ended), .none 1]
          | none => [.none 1])
        | .journal => [Item.flag a.journal.low, Item.flag a.journal.full, Item.flag a.journal.lost]
        | .stock => [Item.flag a.stock.probe[0], Item.flag a.stock.probe[1],
            Item.flag a.stock.probe[2], Item.flag a.stock.variance[0],
            Item.flag a.stock.variance[1], Item.flag a.stock.variance[2], Item.flag a.stock.turn]
        | .link => [Item.flag a.link.jammed, Item.flag a.link.duplicate, Item.flag a.link.viewFull,
            Item.flag a.link.overrun, .num 4 a.link.lost.length] ++
              a.link.lost.map (fun n => .num 1 n)) ++
        .num 4 others.length :: others.map (fun c => .name (.cause c))) ∧
    (∀ c : Cause, c ∈ others ↔
      (match c with
       | .none => False
       | .halt => s.port.attention.halt.isSome = true
       | .estop => s.port.attention.estop.isSome = true
       | .point p => s.port.attention.points[p].isSome = true
       | .journal => s.port.attention.journal.isPending = true
       | .stock => s.port.attention.stock.isPending = true
       | .link => s.port.attention.link.isPending = true)) ∧
    onlyChanges [.exchange] s t

/-- READ_STATUS returns what R188 and R175 list, RESTARTED and WOKE as they were, and then clears RESTARTED,
WOKE, HALT and ESTOP (R179, R182); READ_CONDITIONS returns every flag and leaves set exactly those that were set
and whose condition still holds (R183); READ_FAULTS returns the marks and clears every set (R184). None changes
anything else. What the rules leave open of the bodies is the model's (log entries 8 and 23). -/
def Obligations.StatusConditionAndFaultReadsClear : Prop :=
  (∀ s : State, s.ready → ∃ t : State,
    exec .readStatus s = .next t ∧ t.port.restarted = false ∧ t.port.woke = false ∧
    t.port.restartReason = s.port.restartReason ∧ t.port.wakeReason = s.port.wakeReason ∧
    t.port.attention = { s.port.attention with halt := none, estop := none } ∧
    answered t 0x19 .accepted s.statusReturned ∧
    onlyChanges [.exchange, .restarts, .attention] s t) ∧
  (∀ s : State, s.ready →
    (∃ t : State, exec .readConditions s = .next t ∧
      answered t 0x1B .accepted s.conditionsReturned ∧
      (∀ c : CompId,
        t.port.flags.variance[c] = (s.port.flags.variance[c] && (s.comp c).variance) ∧
        t.port.flags.probeFault[c] = (s.port.flags.probeFault[c] && (s.comp c).probeFault)) ∧
      (∀ p : PointId,
        t.port.flags.tempAbsent[p] = (s.port.flags.tempAbsent[p] && !(s.meter p).tempGood)) ∧
      t.port.flags.jammed = (s.port.flags.jammed && s.link.jammed) ∧
      t.port.flags.duplicate = (s.port.flags.duplicate && s.link.duplicate) ∧
      t.port.flags.viewFull = (s.port.flags.viewFull && s.viewFull) ∧
      t.port.flags.journalLow = (s.port.flags.journalLow && s.journal.low) ∧
      t.port.flags.journalFull = (s.port.flags.journalFull && s.journal.full) ∧
      t.port.flags.portError = false ∧ onlyChanges [.exchange, .flags] s t) ∧
    (∃ t : State, exec .readFaults s = .next t ∧ answered t 0x1C .accepted s.faultsReturned ∧
      (∀ p : PointId, t.port.faults[p] = FaultMarks.clear) ∧ onlyChanges [.exchange, .faults] s t))

/-! ### Switches and tag lines -/

/-- A change of an input is recognised at the sample that makes the run as long as is needed, and not
before: of `need` equal samples against a settled value, only the last reports a change. A sample that
brings no report takes a sample of all seven inputs, with 2 samples needed in PARKED and 3 in every other
mode; it changes the scanner alone, and no debounced value (R1). An unsettled input settles at the third
sample of its first run of 3 equal ones, whatever the mode, and its value is reported as its initial value
(R2). The value of CAL, initial or changed, is handed to the Metrology Check Unit (R4). -/
def Obligations.SwitchesAreDebounced : Prop :=
  (∀ (need : Nat) (x v : Bool), 1 ≤ need → v ≠ x →
    (∀ n : Nat, n < need →
      (Nat.repeat (fun d : Debounce => (d.sample need v).1) n ⟨some x, none, 0⟩).value = some x) ∧
    ((Nat.repeat (fun d : Debounce => (d.sample need v).1) (need - 1) ⟨some x, none, 0⟩).sample need v).2 =
      some (.change v) ∧
    ∀ n : Nat, n + 1 < need →
      ((Nat.repeat (fun d : Debounce => (d.sample need v).1) n ⟨some x, none, 0⟩).sample need v).2 = none) ∧
  (∀ (s : State) (levels : SwitchLevels), s.powered = true →
    s.scanner.reports s.runNeeded levels = [] → ∃ t : State,
      exec (.switchSample levels) s = .next t ∧ (∀ p, t.switchAt p = s.switchAt p) ∧
      t.scanner.brake.value = s.scanner.brake.value ∧ t.scanner.estop.value = s.scanner.estop.value ∧
      t.scanner.cal.value = s.scanner.cal.value ∧
      (let need := if s.mode = .parked then 2 else 3
       (∀ p : PointId, t.scanner.points[p] = (s.scanner.points[p].sample need levels.points[p]).1) ∧
       t.scanner.brake = (s.scanner.brake.sample need levels.brake).1 ∧
       t.scanner.estop = (s.scanner.estop.sample need levels.estop).1 ∧
       t.scanner.cal = (s.scanner.cal.sample need levels.cal).1) ∧
      onlyChanges [.scanner] s t) ∧
  (∀ (need : Nat) (v : Bool) (d : Debounce), d.value = none → d.run ≠ some v →
    (let after (n : Nat) : Debounce := Nat.repeat (fun x : Debounce => (x.sample need v).1) n d
     (∀ n : Nat, n < 2 → ((after n).sample need v).2 = none ∧ (after (n + 1)).value = none) ∧
     ((after 2).sample need v).2 = some (.initial v) ∧ (after 3).value = some v)) ∧
  (∀ (s : State) (levels : SwitchLevels) (e : SwitchEvent), s.powered = true →
    s.scanner.reports s.runNeeded levels = [.cal e] → ∃ t : State,
      exec (.switchSample levels) s = .next t ∧
      t.metrology = { s.metrology with cal := some e.value } ∧
      t.scanner.cal.value = some e.value ∧ onlyChanges [.scanner, .metrology] s t)

/-- A switch sample that recognises the assertion of ESTOP alone closes every valve, sends every point
with an open, unclosed fill to CLOSING with ESTOP and every waiting IDENT or OFFERED point to REFUSED
with ESTOP, and raises the ESTOP cause with its time (R34, R4, R180); while site time is not set that time
is none, the model's choice (log entry 28). One that recognises the release of PARK_BRAKE alone closes the
valve of every delivery point, sends its open, unclosed fill to CLOSING with BRAKE_RELEASED and a waiting
IDENT or OFFERED delivery point to REFUSED with BRAKE; a receipt point does not react (R35). -/
def Obligations.EstopAndBrakeReleaseEndFills : Prop :=
  (∀ (s : State) (levels : SwitchLevels) (e : SwitchEvent), s.powered = true →
    s.scanner.reports s.runNeeded levels = [.estop e] → e.value = true →
    s.port.parkPending = false ∨
      (∀ p : PointId, (s.point p).state = .ident ∨ (s.point p).state = .offered → s.waits p) →
    ∃ t : State, exec (.switchSample levels) s = .next t ∧
      t.scanner.estop.value = some true ∧ t.port.attention.estop = some s.peers.siteTime ∧
      (∀ p : PointId, (t.point p).valve = .closed) ∧
      (∀ p : PointId, (s.point p).state.endable = true →
        (t.point p).state = .closing ∧ (t.point p).ctx.endReason = some .estop) ∧
      (∀ p : PointId, (s.point p).state = .ident ∨ (s.point p).state = .offered → s.waits p →
        (t.point p).state = .refused ∧ (t.point p).ctx.refusal = some .estop) ∧
      onlyChanges ([.scanner, .attention] ++ everyPoint ++ everyLine) s t) ∧
  ∀ (s : State) (levels : SwitchLevels) (e : SwitchEvent), s.powered = true →
    s.scanner.reports s.runNeeded levels = [.brake e] → e.value = false →
    s.port.parkPending = false ∨
      (∀ p : PointId, (s.point p).state = .ident ∨ (s.point p).state = .offered → s.waits p) →
    ∃ t : State, exec (.switchSample levels) s = .next t ∧ t.scanner.brake.value = some false ∧
      (∀ p : PointId, s.role p = .delivery → (t.point p).valve = .closed ∧
        ((s.point p).state.endable = true → t.closingWith p .brakeReleased) ∧
        ((s.point p).state = .ident ∨ (s.point p).state = .offered → s.waits p →
          (t.point p).state = .refused ∧ (t.point p).ctx.refusal = some .brake)) ∧
      (∀ p : PointId, s.role p ≠ .delivery → (Part.point p).same s t ∧ t.line p = s.line p) ∧
      onlyChanges ([.scanner, .attention] ++ everyPoint ++ everyLine) s t

/-- The report of one point switch. A LIFTED nozzle takes an IDLE delivery point to IDENT, or to REFUSED
with the first reason that holds of HALTED, ESTOP, BRAKE and PARK_PENDING; a CLOSED coupling makes the
offer of an IDLE receipt point, or refuses it with the first reason that holds of HALTED, ESTOP,
PARK_PENDING, COMPARTMENT_BUSY, JOURNAL_FULL, FULL and NO_SPACE (R21, R42). HOLSTERED and OPEN return a
point that waits or has ended to IDLE with its context emptied, and end an open, unclosed fill (R22, R24,
R32, R40, R43). No other state reacts. A pending park takes effect as the last point that is not IDLE enters
IDLE, and else the mode and the park state stand (R185, R186). R21 says so of an initial value of LIFTED in RUN; that every other
initial value acts as the same report, and in HALTED too, is the model's reading (log entry 26). -/
def Obligations.SwitchReportsActAtTheirPoint : Prop :=
  ∀ (s : State) (levels : SwitchLevels) (p : PointId) (e : SwitchEvent), s.powered = true →
    s.mode = .run ∨ s.mode = .halted →
    s.scanner.reports s.runNeeded levels = [.point p e] → ∃ t : State,
      exec (.switchSample levels) s = .next t ∧ t.switchAt p = some e.value ∧
      onlyChanges [.scanner, .point p, .line p, .attention, .mode, .park] s t ∧
      (s.role p = .unused → (Part.point p).same s t) ∧
      (s.role p = .delivery → e.value = true → (s.point p).state = .idle → LiftTaken s.mode p s t) ∧
      (s.role p = .receipt → e.value = true → (s.point p).state = .idle →
        ClosureTaken s.mode p (s.probeFull (s.compartmentOf p)) s t) ∧
      (s.role p ≠ .unused → e.value = true → (s.point p).state ≠ .idle → (Part.point p).same s t) ∧
      (s.role p = .delivery → e.value = false →
        match (s.point p).state with
        | .ident | .offered | .ended | .refused =>
          (t.point p).state = .idle ∧ (t.point p).ctx = FillContext.empty ∧
            (t.point p).timers = PointTimers.stopped ∧ (t.line p).powered = false ∧ ParkFollows p s t
        | .priming | .flowing | .slowing | .paused => t.closingWith p .holstered
        | .idle | .closing | .outOfService => (Part.point p).same s t) ∧
      (s.role p = .receipt → e.value = false →
        match (s.point p).state with
        | .offered | .ended | .refused =>
          (t.point p).state = .idle ∧ (t.point p).ctx = FillContext.empty ∧
            (t.point p).timers = PointTimers.stopped ∧ ParkFollows p s t
        | .priming | .flowing | .slowing => t.closingWith p .couplingOpen
        | .idle | .ident | .paused | .closing | .outOfService => (Part.point p).same s t) ∧
      (∀ x : PointId, x ≠ p → t.switchAt x = s.switchAt x) ∧
      (s.role p = .unused ∨ e.value = true ∨ (s.point p).state.isOpen = true ∨
        (s.point p).state = .idle ∨ (s.point p).state = .outOfService → ParkStands s t)

/-- A character with its stop bit on a powered tag line goes to the tail of the FIFO; one that finds the
FIFO full is lost with the FIFO and the frame, is counted and marked; one without its stop bit is
discarded, and one on an unpowered line is not received (R6, R9, R5). The assembler drops bytes outside a frame but A5h, which starts one; appends bytes to
a frame of fewer than 10; and a complete frame with a wrong check byte is discarded, counted and marked,
with presence untouched (R7, R8, R9). -/
def Obligations.TagBytesAssembleAFrame : Prop :=
  (∀ (s : State) (p : PointId) (c : Byte), (s.line p).powered = true →
    (if (s.line p).fifo.length < 16 then
      ∃ t : State, exec (.tagCharacterReceived p c true) s = .next t ∧
        (t.line p).fifo = (s.line p).fifo ++ [c] ∧ (t.line p).frame = (s.line p).frame ∧
        (t.line p).presence = (s.line p).presence ∧ (t.line p).overrunErrors = (s.line p).overrunErrors ∧
        onlyChanges [.line p] s t
    else
      ∃ t : State, exec (.tagCharacterReceived p c true) s = .next t ∧
        (t.line p).fifo = [] ∧ (t.line p).frame = [] ∧ (t.line p).charTimer = false ∧
        (t.line p).overrunErrors = min 65535 ((s.line p).overrunErrors + 1) ∧
        (t.line p).presence = (s.line p).presence ∧ (t.line p).current = (s.line p).current ∧
        t.port.faults[p].tagLine = true ∧ onlyChanges [.line p, .faults] s t) ∧
    ∃ t : State, exec (.tagCharacterReceived p c false) s = .next t ∧ onlyChanges [] s t) ∧
  (∀ (s : State) (p : PointId) (c : Byte) (stopBit : Bool), (s.line p).powered = false → ∃ t : State,
    exec (.tagCharacterReceived p c stopBit) s = .next t ∧ onlyChanges [] s t) ∧
  (∀ (s : State) (p : PointId) (b : Byte) (rest : List Byte), (s.line p).fifo = b :: rest →
    ∃ t : State, exec (.tagByteTaken p) s = .next t ∧
      if (s.line p).frame = [] then
        t.line p = (if b = 0xA5 then { s.line p with fifo := rest, frame := [0xA5], charTimer := true }
          else { s.line p with fifo := rest }) ∧ onlyChanges [.line p] s t
      else if (s.line p).frame.length < 10 then
        t.line p = { s.line p with fifo := rest, frame := (s.line p).frame ++ [b] } ∧
          onlyChanges [.line p] s t
      else if xorBytes ((((s.line p).frame ++ [b]).drop 1).take 9) ≠
          ((s.line p).frame ++ [b]).getD 10 0 then
        t.line p = { s.line p with
            fifo := rest, frame := [], charTimer := false,
            checkErrors := min 65535 ((s.line p).checkErrors + 1) } ∧
          t.port.faults[p].tagLine = true ∧ onlyChanges [.line p, .faults] s t
      else (t.line p).frame = [])

/-- A valid frame completes: presence follows Table 1-3. A first frame makes PENDING, a second with the
same ID makes PRESENT, in PRESENT the current ID clears a candidate and another ID becomes one. The
point here takes no action on PRESENT (R10, R11, R21). A no-tag frame, one with a good check byte and a status
other than 00h, leaves ABSENT as it is, returns PENDING to ABSENT with the candidate cleared and the tag-loss
timer stopped, and in PRESENT clears the candidate; nothing is reported to the point (R8, R10, R11). -/
def Obligations.PresenceNeedsTwoFrames : Prop :=
  (∀ (s : State) (p : PointId) (b : Byte) (id : TagId), s.endsTagFrame p b id →
    (s.point p).state ≠ .ident → (s.point p).state ≠ .paused →
    ∃ t : State, exec (.tagByteTaken p) s = .next t ∧
      match (s.line p).presence with
      | .absent =>
        t.line p = { s.line p with
            fifo := [], frame := [], charTimer := false, presence := .pending, candidate := some id,
            lossTimer := true } ∧ onlyChanges [.line p] s t
      | .pending =>
        t.line p = (if (s.line p).candidate = some id then
            { s.line p with
              fifo := [], frame := [], charTimer := false, presence := .present, current := some id,
              candidate := none, lossTimer := true }
          else
            { s.line p with
              fifo := [], frame := [], charTimer := false, candidate := some id,
              lossTimer := true }) ∧ onlyChanges [.line p] s t
      | .present =>
        ((s.line p).current = some id →
          t.line p = { s.line p with
            fifo := [], frame := [], charTimer := false, candidate := none, lossTimer := true } ∧
          onlyChanges [.line p] s t) ∧
        ((s.line p).current ≠ some id → (s.line p).candidate ≠ some id →
          t.line p = { s.line p with
            fifo := [], frame := [], charTimer := false, candidate := some id, lossTimer := true } ∧
          onlyChanges [.line p] s t)) ∧
  ∀ (s : State) (p : PointId) (b : Byte), s.endsNoTagFrame p b → ∃ t : State,
    exec (.tagByteTaken p) s = .next t ∧ onlyChanges [.line p] s t ∧
    t.line p = (match (s.line p).presence with
      | .absent => { s.line p with fifo := [], frame := [], charTimer := false }
      | .pending => { s.line p with
          fifo := [], frame := [], charTimer := false, presence := .absent, candidate := none,
          lossTimer := false }
      | .present => { s.line p with fifo := [], frame := [], charTimer := false, candidate := none })

/-- What the tag of a delivery point does in RUN. PRESENT in IDENT is looked up: an unknown tag, a barred
machine and a machine without the point's product are refused; a machine found is offered the least of its
terms, or, on an auto-confirm point, its fill opens at once with the default preset as its request and no
operator; the first check of the offer that fails refuses it with its reason (R15, R22, R23, R83). PRESENT in PAUSED resumes the fill for the tag that opened it and ends it with
TAG_CHANGED for another (R31). CHANGED refuses an offer made by tag and ends an open fill in PRIMING,
FLOWING and SLOWING with TAG_CHANGED; ABSENT returns an offer made by tag to IDENT (R24, R32). Work that was
identified by hand does not react. -/
def Obligations.TagReportsActAtTheirPoint : Prop :=
  (∀ (s : State) (p : PointId) (b : Byte) (id : TagId), s.mode = .run → s.role p = .delivery →
    (s.line p).powered = true → s.endsTagFrame p b id → (s.line p).presence = .pending →
    (s.line p).candidate = some id → ∃ t : State, exec (.tagByteTaken p) s = .next t ∧
      (s.waits p → (t.line p).presence = .present ∧ (t.line p).current = some id) ∧
      ((s.point p).state = .ident → s.waits p →
        (s.machineByTag id = none → t.refusedWith p .unknownTag ∧
          onlyChanges [.point p, .line p, .attention] s t) ∧
        (∀ (m : RosterRecord) (q : Fin 8), s.machineByTag id = some m → s.productAt p = q.val + 1 →
          if m.barred = true ∨ m.products.getLsbD q.val = false then
            (t.point p).state = .refused ∧
            (t.point p).ctx = { FillContext.empty with
              named := some (m.fleet, m.account)
              refusal := some (if m.barred = true then .barred else .wrongProduct) } ∧
            onlyChanges [.point p, .line p, .attention] s t
          else match s.firstRefusal p m (s.pp p).defaultPreset with
          | some r =>
            (t.point p).state = .refused ∧
            (t.point p).ctx = { FillContext.empty with
              named := some (m.fleet, m.account), refusal := some r } ∧
            t.port.attention.points[p] = some (.refused r) ∧
            onlyChanges [.point p, .line p, .attention] s t
          | none =>
            if (s.pp p).autoConfirm = false then
              (t.point p).state = .offered ∧
              (t.point p).ctx = { FillContext.empty with
                machine := some m, tag := some id
                offer := some (s.presetOf p m (s.pp p).defaultPreset) } ∧
              (t.point p).timers = { PointTimers.stopped with confirm := true } ∧
              t.port.attention.points[p] =
                some (.offer (s.presetOf p m (s.pp p).defaultPreset)) ∧
              onlyChanges [.point p, .line p, .attention] s t
            else
              (t.point p).state = .priming ∧
              (t.point p).ctx = { FillContext.empty with
                machine := some m, tag := some id
                offer := some (s.presetOf p m (s.pp p).defaultPreset)
                request := some (max (s.pp p).defaultPreset (s.pp p).minFill)
                operator := some 0
                preset := some (s.presetOf p m (max (s.pp p).defaultPreset (s.pp p).minFill))
                price := some (s.priceFor p), slot := some s.journal.writePosition,
                seq := some s.journal.nextSeq } ∧
              (t.meter p).counting = true ∧ t.journal.nextSeq = s.journal.nextSeq + 1 ∧
              t.journal.held = s.journal.held + 1)) ∧
      ((s.point p).state = .paused →
        (if (s.point p).ctx.tag = some id then
          (t.point p).state = .priming ∧ (t.point p).counted = false ∧
            (t.point p).timers = { PointTimers.stopped with prime := true, noFlow := true } ∧
            (t.point p).ctx = (s.point p).ctx
        else t.closingWith p .tagChanged) ∧ onlyChanges [.point p, .line p] s t)) ∧
  (∀ (s : State) (p : PointId) (b : Byte) (id : TagId), s.mode = .run → s.role p = .delivery →
    (s.line p).powered = true → s.endsTagFrame p b id → (s.line p).presence = .present →
    (s.line p).candidate = some id → (s.line p).current ≠ some id → s.waits p → ∃ t : State,
      exec (.tagByteTaken p) s = .next t ∧
      (t.line p).presence = .present ∧ (t.line p).current = some id ∧
      onlyChanges [.point p, .line p, .attention] s t ∧
      if (s.point p).ctx.tag = none then (Part.point p).same s t
      else match (s.point p).state with
        | .offered => (t.point p).state = .refused ∧
            (t.point p).ctx = { (s.point p).ctx with refusal := some .tagChanged } ∧
            t.port.attention.points[p] = some (.refused .tagChanged)
        | .priming | .flowing | .slowing => t.closingWith p .tagChanged
        | _ => (Part.point p).same s t) ∧
  (∀ (s : State) (p : PointId), s.role p = .delivery → (s.line p).lossTimer = true →
    (s.line p).presence = .present → (s.point p).state = .offered → ∃ t : State,
      exec (.tagLossTimerExpiry p) s = .next t ∧
      (if (s.point p).ctx.tag = none then (Part.point p).same s t
      else (t.point p).state = .ident ∧ (t.point p).ctx = FillContext.empty ∧
        (t.point p).timers = PointTimers.stopped) ∧
      onlyChanges [.point p, .line p] s t)

/-- The inter-character timer discards the frame in assembly, counted and marked; the tag-loss timer
makes the line ABSENT, and pauses an open tag fill of a delivery point if the line was PRESENT (R7, R9,
R12, R30). The confirm window refuses a waiting offer with CONFIRM_TIMEOUT; the prime time starts the full
flow once counts were made; the no-flow timer ends the fill with NO_FLOW, marked; the pause grace ends it
with TAG_LOST (R24, R27, R29, R31, R32). -/
def Obligations.TagAndPointTimersEndTheirStates : Prop :=
  ((∀ (s : State) (p : PointId), (s.line p).charTimer = true → ∃ t : State,
    exec (.tagTimeoutError p) s = .next t ∧
    t.line p = { s.line p with
      frame := [], charTimer := false, timeoutErrors := min 65535 ((s.line p).timeoutErrors + 1) } ∧
    t.port.faults[p].tagLine = true ∧ onlyChanges [.line p, .faults] s t) ∧
  (∀ (s : State) (p : PointId), (s.line p).lossTimer = true → (s.line p).presence = .pending →
    ∃ t : State, exec (.tagLossTimerExpiry p) s = .next t ∧
      t.line p = { s.line p with
        presence := .absent, current := none, candidate := none, lossTimer := false } ∧
      onlyChanges [.line p] s t) ∧
  (∀ (s : State) (p : PointId), (s.line p).lossTimer = true → (s.line p).presence = .present →
    s.role p = .delivery → (s.point p).ctx.tag.isSome = true →
    (s.point p).state = .priming ∨ (s.point p).state = .flowing ∨ (s.point p).state = .slowing →
    ∃ t : State, exec (.tagLossTimerExpiry p) s = .next t ∧
      (t.point p).state = .paused ∧ (t.point p).timers = { PointTimers.stopped with grace := true } ∧
      (t.point p).ctx = (s.point p).ctx ∧ (t.point p).valve = .closed ∧
      (t.line p).presence = .absent ∧ onlyChanges [.point p, .line p] s t)) ∧
  ((∀ (s : State) (p : PointId), (s.point p).state = .offered → (s.point p).timers.confirm = true →
    s.waits p → ∃ t : State, exec (.confirmWindowExpiry p) s = .next t ∧
      (t.point p).state = .refused ∧ (t.point p).ctx.refusal = some .confirmTimeout ∧
      t.port.attention.points[p] = some (.refused .confirmTimeout) ∧
      onlyChanges [.point p, .line p, .attention] s t) ∧
  (∀ (s : State) (p : PointId), (s.point p).state = .priming → (s.point p).timers.prime = true →
    ∃ t : State, exec (.primeTimeExpiry p) s = .next t ∧
      (t.point p).timers.prime = false ∧ (t.point p).ctx = (s.point p).ctx ∧
      (t.point p).state = (if (s.point p).counted = false then .priming
        else match (s.meter p).slowTarget with
          | some x => if x ≤ (s.meter p).live then .slowing else .flowing
          | none => .flowing) ∧
      onlyChanges [.point p] s t) ∧
  (∀ (s : State) (p : PointId), (s.point p).state = .priming ∨ (s.point p).state = .flowing →
    (s.point p).timers.noFlow = true → ∃ t : State, exec (.noFlowTimerExpiry p) s = .next t ∧
      (t.point p).state = .closing ∧ (t.point p).ctx.endReason = some .noFlow ∧
      t.port.faults[p].noFlow = true ∧ onlyChanges [.point p, .line p, .faults] s t) ∧
  (∀ (s : State) (p : PointId), (s.point p).state = .paused → (s.point p).timers.grace = true →
    ∃ t : State, exec (.pauseGraceExpiry p) s = .next t ∧
      (t.point p).state = .closing ∧ (t.point p).ctx.endReason = some .tagLost ∧
      (t.point p).timers = { PointTimers.stopped with settle := true, closeTimeout := true } ∧
      onlyChanges [.point p, .line p] s t))

/-! ### The timers and the close of a point -/

/-- The close of a delivery whose settle timer expires takes the final interval with its own length,
closes the record in place, raises the machine's own shift total by N, takes N from the book stock, bills
the account with N and its cost, and queues the CLOSE bulletin; the close of a receipt adds N to the book stock
and bills nothing. The other slots and accounts stand (R39, R52, R59, R63, R68, R92, R133, R154, R160). The
restock evaluation follows (R140, R141, R143, R145). The point enters ENDED or, when it is marked so,
OUT_OF_SERVICE; one whose switch already shows HOLSTERED or OPEN returns to IDLE at once, and a pending park may
then take effect (R38, R40, R41, R185). That the mark still stands in OUT_OF_SERVICE, when an own restock
entry is offered again, and that the elapsed intervals stop at 4,294,967,295 are the model's (log entries 33, 16
and 21). -/
def Obligations.CloseBillsTheFill : Prop :=
  (∀ (s : State) (p : PointId) (ms : Nat) (temp : TempReading) (m : RosterRecord) (a : Fin 32)
    (q : Fin 8) (k : Nat) (r : Record) (f : FillRecord) (mp : MeterParams),
    (s.point p).state = .closing → (s.point p).timers.settle = true →
    s.role p = .delivery → (s.point p).ctx.machine = some m → m.account = a.val + 1 →
    s.productAt p = q.val + 1 → (s.point p).ctx.slot = some k →
    slotAt s.rm.slots k = some ⟨true, r⟩ → r.body = .fill false f → s.params.meters[p] = some mp →
    (s.allowance.own.map Prod.fst).Pairwise (· < ·) →
    ∃ (t : State) (n cost : Int), exec (.closeSettleExpiry p ms temp) s = .next t ∧
      DeliveryClosed p ms temp (s.point p).ctx (s.point p).outMark m a q k r f mp n cost s t ∧
      ((s.point p).outMark = true → (t.point p).outMark = true)) ∧
  (∀ (s : State) (p : PointId) (ms : Nat) (temp : TempReading) (q : Fin 8) (k : Nat) (r : Record)
    (f : FillRecord) (mp : MeterParams),
    (s.point p).state = .closing → (s.point p).timers.settle = true →
    s.role p = .receipt → (s.point p).ctx.slot = some k →
    slotAt s.rm.slots k = some ⟨true, r⟩ → r.body = .fill true f → s.params.meters[p] = some mp →
    s.productAt p = q.val + 1 →
    ∃ (t : State) (n : Int), exec (.closeSettleExpiry p ms temp) s = .next t ∧
      ReceiptClosed p ms temp (s.point p).ctx (s.point p).outMark q k r f mp n s t ∧
      ((s.point p).outMark = true → (t.point p).outMark = true))

/-- The close timeout closes the fill as a valve fault: the record ends with VALVE_FAULT and DISPUTED,
the VALVE mark is set and the point goes OUT_OF_SERVICE with its line powered down (R38, R41, R184). The delivery
is billed, its total raised and its CLOSE queued, and the receipt booked, by the same steps as at any other close,
and the restock evaluation follows (R39, R59, R68, R92, R133, R140, R154, R160). That the mark is set, and still
stands in OUT_OF_SERVICE (log entry 33), when the own restock entry is offered again and with what refresh
time (log entry 16), and that the elapsed intervals stop at 4,294,967,295 (log entry 21), are the model's. -/
def Obligations.CloseTimeoutTakesThePointOut : Prop :=
  (∀ (s : State) (p : PointId) (ms : Nat) (temp : TempReading) (k : Nat) (r : Record)
    (f : FillRecord) (receipt : Bool),
    (s.point p).state = .closing → (s.point p).timers.closeTimeout = true →
    (s.point p).ctx.slot = some k → slotAt s.rm.slots k = some ⟨true, r⟩ →
    r.body = .fill receipt f →
    ∃ t : State, exec (.closeTimeout p ms temp) s = .next t ∧
      (t.point p).state = .outOfService ∧ (t.point p).ctx.endReason = some .valveFault ∧
      (t.point p).ctx.disputed = true ∧ (t.point p).valve = .closed ∧ (t.point p).outMark = true ∧
      (t.line p).powered = false ∧ (t.meter p).counting = false ∧
      t.port.faults[p].valve = true ∧
      t.port.attention.points[p] = some (.ended (some .valveFault)) ∧
      (∀ j : Nat, j ≠ k → slotAt t.rm.slots j = slotAt s.rm.slots j) ∧
      ∃ (r' : Record) (g : FillRecord), slotAt t.rm.slots k = some ⟨true, r'⟩ ∧ r'.closed = true ∧
        r'.body = .fill receipt g ∧ g.endReason = some .valveFault ∧ g.disputed = true ∧
        g.net = (t.meter p).net) ∧
  (∀ (s : State) (p : PointId) (ms : Nat) (temp : TempReading) (m : RosterRecord) (a : Fin 32)
    (q : Fin 8) (k : Nat) (r : Record) (f : FillRecord) (mp : MeterParams),
    (s.point p).state = .closing → (s.point p).timers.closeTimeout = true →
    s.role p = .delivery → (s.point p).ctx.machine = some m → m.account = a.val + 1 →
    s.productAt p = q.val + 1 → (s.point p).ctx.slot = some k →
    slotAt s.rm.slots k = some ⟨true, r⟩ → r.body = .fill false f → s.params.meters[p] = some mp →
    (s.allowance.own.map Prod.fst).Pairwise (· < ·) →
    ∃ (t : State) (n cost : Int), exec (.closeTimeout p ms temp) s = .next t ∧
      DeliveryClosed p ms temp
        { (s.point p).ctx with endReason := some .valveFault, disputed := true } true
        m a q k r f mp n cost s t) ∧
  (∀ (s : State) (p : PointId) (ms : Nat) (temp : TempReading) (q : Fin 8) (k : Nat) (r : Record)
    (f : FillRecord) (mp : MeterParams),
    (s.point p).state = .closing → (s.point p).timers.closeTimeout = true →
    s.role p = .receipt → (s.point p).ctx.slot = some k →
    slotAt s.rm.slots k = some ⟨true, r⟩ → r.body = .fill true f → s.params.meters[p] = some mp →
    s.productAt p = q.val + 1 →
    ∃ (t : State) (n : Int), exec (.closeTimeout p ms temp) s = .next t ∧
      ReceiptClosed p ms temp
        { (s.point p).ctx with endReason := some .valveFault, disputed := true } true
        q k r f mp n s t)

/-! ### Metering -/

/-- An edge of a meter line while the channel counts moves the phase by one place, and the live raw
count and the interval count by the forward or reverse count it makes (R47). An edge on the line of the
edge before adds a fault and ends the clean run; the fourth edge in a row on alternate lines sets the fault
counter to 0 (R49). A double transition makes no count, adds a fault and moves to the opposite phase (R48).
The event that takes the fault counter above its limit during an open fill marks the point to go out of
service, disputes the fill and sets the METER mark, and ends an unclosed fill with METER_FAULT (R37). A
forward count that takes the live count to a target reports it, and one in PRIMING is noted, and ends
PRIMING once the prime time is over (R27, R28, R62). -/
def Obligations.MeterEdgesCountByPhase : Prop :=
  ∀ (s : State) (p : PointId), s.metersPowered = true → (s.meter p).counting = true →
    (∀ line : MeterLine, ∃ t : State, exec (.meterEdge p line) s = .next t ∧
      (t.meter p).phase = togglePhase (s.meter p).phase line ∧
      (t.meter p).live = (s.meter p).live +
        (if (s.meter p).phase = 3 ∧ (t.meter p).phase = 0 then 1
         else if (s.meter p).phase = 0 ∧ (t.meter p).phase = 3 then -1 else 0) ∧
      (t.meter p).interval - (s.meter p).interval = (t.meter p).live - (s.meter p).live ∧
      (t.meter p).lastEdge = some line ∧ (t.meter p).c = (s.meter p).c ∧
      (t.meter p).net = (s.meter p).net ∧
      onlyChanges [.point p, .line p, .meter p, .faults, .free] s t ∧
      (if (s.meter p).lastEdge = some line then
        (t.meter p).faults = min 255 ((s.meter p).faults + 1) ∧ (t.meter p).cleanRun = 0
      else if 3 ≤ (s.meter p).cleanRun then (t.meter p).faults = 0 ∧ (t.meter p).cleanRun = 0
      else (t.meter p).faults = (s.meter p).faults ∧
        (t.meter p).cleanRun = (s.meter p).cleanRun + 1) ∧
      ((s.meter p).lastEdge = some line → (s.meter p).faults = (s.pp p).faultLimit →
        (s.point p).state.isOpen = true →
        (t.point p).outMark = true ∧ (t.point p).ctx.disputed = true ∧
          t.port.faults[p] = { s.port.faults[p] with meter := true } ∧
          ((s.point p).state.endable = true → (t.point p).state = .closing ∧
            (¬ ((s.meter p).phase = 3 ∧ (t.meter p).phase = 0) →
              t.closingWith p .meterFault))) ∧
      ((s.meter p).lastEdge ≠ some line ∨ (s.meter p).faults ≠ (s.pp p).faultLimit →
        (let stops := (s.meter p).stopTarget = some ((s.meter p).live + 1)
         t.port.faults = s.port.faults ∧
         if (s.meter p).phase = 3 ∧ (t.meter p).phase = 0 then
           match (s.point p).state with
           | .priming =>
             (stops → t.closingWith p .preset) ∧
             (¬ stops → (t.point p).counted = true ∧ (t.point p).ctx = (s.point p).ctx ∧
               if (s.point p).timers.prime = true then
                 (t.point p).state = .priming ∧ (t.point p).timers = (s.point p).timers
               else (t.point p).state =
                 (match (s.meter p).slowTarget with
                  | some x => if x ≤ (s.meter p).live + 1 then .slowing else .flowing
                  | none => .flowing))
           | .flowing =>
             (stops → t.closingWith p .preset) ∧
             (¬ stops →
               if (s.meter p).slowTarget = some ((s.meter p).live + 1) then
                 (t.point p).state = .slowing ∧ (t.point p).timers.noFlow = false ∧
                   (t.point p).ctx = (s.point p).ctx
               else (Part.point p).same s t)
           | .slowing | .paused =>
             (stops → t.closingWith p .preset) ∧ (¬ stops → (Part.point p).same s t)
           | _ => (Part.point p).same s t
         else (Part.point p).same s t))) ∧
    (∃ t : State, exec (.doubleTransition p) s = .next t ∧
      (t.meter p).phase = (s.meter p).phase + 2 ∧ (t.meter p).live = (s.meter p).live ∧
      (t.meter p).interval = (s.meter p).interval ∧ (t.meter p).lastEdge = none ∧
      (t.meter p).cleanRun = 0 ∧ (t.meter p).faults = min 255 ((s.meter p).faults + 1) ∧
      onlyChanges [.point p, .line p, .meter p, .faults] s t ∧
      (if (s.meter p).faults = (s.pp p).faultLimit ∧ (s.point p).state.isOpen = true then
        (t.point p).outMark = true ∧ (t.point p).ctx.disputed = true ∧
          t.port.faults[p] = { s.port.faults[p] with meter := true } ∧
          ((s.point p).state.endable = true → t.closingWith p .meterFault)
      else (Part.point p).same s t ∧ t.port.faults = s.port.faults))

/-- An interval end of a counting channel updates the accumulators by the interval count, the factor of
its band and the temperature, and computes G, Tm, F and N from them (R51 to R58). That the elapsed intervals stop at
4,294,967,295 is the model's choice (log entry 21). -/
def Obligations.IntervalEndUpdatesTheVolumes : Prop :=
  ∀ (s : State) (p : PointId) (temp : TempReading) (mp : MeterParams) (q : Fin 8),
    s.powered = true → (s.meter p).counting = true → s.params.meters[p] = some mp →
    s.productAt p = q.val + 1 →
    ∃ t : State, exec (.intervalEnd p temp) s = .next t ∧
      EndsInterval mp s.params.products[q] 1000 temp (s.meter p) (t.meter p) ∧
      (t.meter p).counting = true ∧
      onlyChanges [.point p, .line p, .meter p, .checkpoints, .flags, .faults] s t

/-- The gross volume is floor(10 × C / K) of the corrected count as it then stands, at each interval end
and at the close, and it is not below 0 (R55). -/
def Obligations.GrossVolumeFromTheCorrectedCount : Prop :=
  ∀ (s t : State) (p : PointId) (temp : TempReading) (ms : Nat) (mp : MeterParams),
    s.powered = true → s.params.meters[p] = some mp →
    ((s.meter p).counting = true ∧ exec (.intervalEnd p temp) s = .next t) ∨
      ((s.point p).state = .closing ∧ (s.point p).timers.settle = true ∧
        exec (.closeSettleExpiry p ms temp) s = .next t) ∨
      ((s.point p).state = .closing ∧ (s.point p).timers.closeTimeout = true ∧
        exec (.closeTimeout p ms temp) s = .next t) →
    (t.meter p).gross = Int.fdiv (10 * (t.meter p).c) mp.k ∧ 0 ≤ (t.meter p).gross

/-- The compensation factor: its formula with compensation on and off, its range for an α of 0..200 and a
mean temperature of −400..600, and its side of 1,000,000 for warmer and colder fuel (R57). -/
def Obligations.CompensationFactorStaysInRange : Prop :=
  ∀ (alpha tm : Int),
    factorOf true alpha tm = 1000000 - alpha * (tm - 150) ∧ factorOf false alpha tm = 1000000 ∧
    (0 ≤ alpha → alpha ≤ 200 → -400 ≤ tm → tm ≤ 600 →
      910000 ≤ factorOf true alpha tm ∧ factorOf true alpha tm ≤ 1110000) ∧
    (0 < alpha → 150 < tm → factorOf true alpha tm < 1000000) ∧
    (0 < alpha → tm < 150 → 1000000 < factorOf true alpha tm)

/-- The target raw count of a net goal is that of R60, and the least live count, from the present one on,
at which the corrected count brings the net volume to the goal; the slow target of a goal of 0 or below is
the present count. An interval end recomputes both targets of a channel from the values it produced, and
reports those the live count has reached; the opening of a fill computes them from zero, with band 0 and no
compensation (R60, R61, R62, R64). That the hard limit is reported before the targets, so that a fill that
meets both ends with LIMIT, is the model's reading of step 6 of R51 (log entry 15). -/
def Obligations.TargetsAimAtTheLeastCount : Prop :=
  (∀ goal c r factor f k : Int, 0 < factor → 0 < k → -10000 < f →
    IsTarget goal c r factor f k (targetOf goal c r factor f k) ∧
    ∀ slowdown : Int,
      slowTargetOf goal slowdown c r factor f k =
        if goal - slowdown ≤ 0 then r else targetOf (goal - slowdown) c r factor f k) ∧
  (∀ (s : State) (p : PointId) (temp : TempReading) (mp : MeterParams) (q : Fin 8) (n : Nat),
    s.powered = true → (s.meter p).counting = true → s.params.meters[p] = some mp →
    s.productAt p = q.val + 1 → (s.point p).ctx.preset = some n → 0 < mp.k →
    (∀ band : Fin 4, -10000 < mp.f[band]) → ∃ (t : State) (stop slow : Int),
      exec (.intervalEnd p temp) s = .next t ∧
      (t.meter p).stopTarget = some stop ∧ (t.meter p).slowTarget = some slow ∧
      (∀ factor : Int, 0 < factor →
        factor = (if s.params.products[q].compensated then
          1000000 - s.params.products[q].alpha * ((t.meter p).tm - 150) else 1000000) →
        IsTarget n (t.meter p).c (t.meter p).live factor mp.f[(t.meter p).lastBand] mp.k stop ∧
        if n ≤ (s.pp p).slowdown then slow = (t.meter p).live
        else IsTarget ((n : Int) - (s.pp p).slowdown) (t.meter p).c (t.meter p).live factor
          mp.f[(t.meter p).lastBand] mp.k slow) ∧
      if (s.point p).state.endable = false then (Part.point p).same s t
      else if 20000000 ≤ (t.meter p).gross then t.closingWith p .limit
      else if stop ≤ (t.meter p).live then t.closingWith p .preset
      else if slow ≤ (t.meter p).live ∧ (s.point p).state = .flowing then
        (t.point p).state = .slowing ∧ (t.point p).timers.noFlow = false ∧
          (t.point p).ctx = (s.point p).ctx
      else (Part.point p).same s t) ∧
  (∀ (s t : State) (b : Byte) (volume : BitVec 32) (operator : BitVec 16) (p : PointId)
    (mp : MeterParams) (n : Nat), exec (.confirm b volume operator) s = .next t →
    pointOf b = some p → (s.point p).state = .offered → (t.point p).state = .priming →
    (t.point p).ctx.preset = some n → s.params.meters[p] = some mp → 0 < mp.k →
    -10000 < mp.f[0] → ∃ stop slow : Int,
      (t.meter p).stopTarget = some stop ∧ (t.meter p).slowTarget = some slow ∧
      IsTarget n 0 0 1000000 mp.f[0] mp.k stop ∧
      if n ≤ (s.pp p).slowdown then slow = 0
      else IsTarget ((n : Int) - (s.pp p).slowdown) 0 0 1000000 mp.f[0] mp.k slow)

/-- A temperature sample of a stopped channel sets its condition, and an absent one sets the flag, and
the TEMP mark when the sample before was good; a finished checkpoint write puts the checkpoint into the
area that did not hold the latest one, and the waiting one is written next (R53, R153, R65). That with equal
counts it goes into area B is the model's choice (log entry 31). -/
def Obligations.TemperatureAndCheckpointWrites : Prop :=
  (∀ (s : State) (p : PointId) (temp : TempReading), s.metersPowered = true →
    (s.meter p).counting = false → ∃ t : State,
      exec (.stoppedTemperatureSample p temp) s = .next t ∧
      t.meter p = { s.meter p with tempGood := !(TempReading.isAbsent temp) } ∧
      t.port.flags = (if TempReading.isAbsent temp then
        { s.port.flags with tempAbsent := s.port.flags.tempAbsent.set p true } else s.port.flags) ∧
      t.port.faults[p] = (if TempReading.isAbsent temp ∧ (s.meter p).tempGood = true then
        { s.port.faults[p] with temp := true } else s.port.faults[p]) ∧
      onlyChanges [.meter p, .flags, .faults] s t) ∧
  (∀ (s : State) (p : PointId) (c : Checkpoint) (k : Nat) (x : Slot) (receipt : Bool)
    (f : FillRecord), s.journal.writing[p] = some c → (s.point p).ctx.slot = some k →
    slotAt s.rm.slots k = some x → x.record.body = .fill receipt f →
    f.areaA.ok = true → f.areaB.ok = true → ∃ t : State,
      exec (.checkpointWriteComplete p) s = .next t ∧
      t.journal.writing = s.journal.writing.set p s.journal.waiting[p] ∧
      t.journal.waiting = s.journal.waiting.set p none ∧
      slotAt t.rm.slots k = some { x with
        record := { x.record with
          body := (.fill receipt
            (if f.areaA.checkpoint.elapsed < f.areaB.checkpoint.elapsed then
              { f with areaA := ⟨true, c⟩ }
            else { f with areaB := ⟨true, c⟩ })) } } ∧
      (∀ j, j ≠ k → slotAt t.rm.slots j = slotAt s.rm.slots j) ∧
      onlyChanges [.checkpoints, .rm] s t)

/-! ### Allowances and stock -/

/-- The preset of a delivery is the least of its terms, each at most once and none above another: the
request, 20,000,000 mL, the remaining allowance, the tank capacity and the available stock (R82). The remaining
allowance is the shift allowance less the own total, the contributions, the holds and the own open presets of the
machine and the gap deduction, floored at 0 (R81). The gap deduction is the cap during warm-up, else the gap
reserve by the sum of the peers' gap counts, at most the cap (R80). The own total is that of the machine's entry,
0 without one (R68). The available stock of a present compartment is its book stock, or the lesser of that and
the volume of a valid probe, less the reserve and the outstanding volumes of its open deliveries, floored at 0
(R136, R84). -/
def Obligations.PresetIsTheLeastOfItsTerms : Prop :=
  (∀ (s : State) (p : PointId) (m : RosterRecord) (request n : Nat),
    n ≤ s.presetOf p m request ↔
      n ≤ request ∧ n ≤ 20000000 ∧ (∀ a, m.allowance = some a → n ≤ s.remaining m.fleet a) ∧
        (∀ v, m.tank = some v → n ≤ v) ∧ n ≤ s.available (s.compartmentOf p)) ∧
  (∀ (s : State) (fleet a : Nat),
    (s.remaining fleet a : Int) = max 0 ((a : Int) -
      (s.allowance.ownTotal fleet +
        ((s.allowance.contributions.filter (fun c => c.fleet = fleet)).map Contribution.value).sum +
        ((s.allowance.holds.filter (fun h => h.fleet = fleet)).map Hold.volume).sum +
        ((s.allowance.openPresets.filter (fun o => o.fleet = fleet)).map OpenPreset.preset).sum +
        (if s.peers.warmUp = true then s.params.gapCap
         else min (s.params.gapReserve * (s.peers.table.toList.map Peer.g).sum) s.params.gapCap) : Nat)) ∧
    ((∀ v : Nat, (fleet, v) ∉ s.allowance.own) → s.allowance.ownTotal fleet = 0) ∧
    (∀ v : Nat, (s.allowance.own.map Prod.fst).Pairwise (· < ·) → (fleet, v) ∈ s.allowance.own →
      s.allowance.ownTotal fleet = v)) ∧
  (∀ (s : State) (c : CompId),
    (s.cp c = none → s.available c = 0) ∧
    ∀ (k : CompParams) (basis : Int), s.cp c = some k →
      ((s.comp c).probe ≠ .valid ∧ basis = (s.comp c).book) ∨
        ((s.comp c).probe = .valid ∧
          ∃ v : Nat, (s.comp c).volume = some v ∧ basis = min (s.comp c).book v) →
      (s.available c : Int) = max 0 (basis - k.reserve * 1000 -
        ((s.allowance.openPresets.filter (fun o => s.compartmentOf o.point = c)).map
          (fun o => max 0 ((o.preset : Int) - (s.meter o.point).net))).sum))

/-- The strapped volume: the first point's volume below it, straight-line interpolation between two
points, the last point's volume above it; a higher level never gives a lower volume (R131). -/
def Obligations.StrappedVolumesDoNotFall : Prop :=
  ∀ (table : List (Nat × Nat)), table.Pairwise (fun a b => a.1 < b.1 ∧ a.2 ≤ b.2) →
    (∀ l l' : Nat, l ≤ l' → strapped table l ≤ strapped table l') ∧
    (∀ (i : Nat) (a b : Nat × Nat), table[i]? = some a → table[i + 1]? = some b →
      ∀ l : Nat, a.1 ≤ l → l < b.1 →
        strapped table l = a.2 + (l - a.1) * (b.2 - a.2) / (b.1 - a.1)) ∧
    (∀ a ∈ table, strapped table a.1 = a.2) ∧
    (∀ a, table.head? = some a → ∀ l : Nat, l ≤ a.1 → strapped table l = a.2) ∧
    (∀ a, table.getLast? = some a → ∀ l : Nat, a.1 ≤ l → strapped table l = a.2)

/-- A good probe sample sets level, volume and time and makes the probe VALID; one out of range makes it
FAULT, with the flag and STOCK attention at the passage; so does a missing one, 30 s after START while
UNSAMPLED and 30 s after the last good sample while VALID (R129, R130, R131). Before START no sample is taken,
and only what the probe lines give changes, the model's choice (R129; log entry 14). A good sample below the
reserve ends the open, unclosed deliveries of the compartment with LOW_LEVEL, one at or above the high
level its receipts with FULL (R132, R37, R43). A variance check falls due at 600 s of quiet; on a valid
probe it counts a difference above the tolerance, holds VARIANCE at the third in a row, and clears both at
one within it; without one it is skipped; either way the quiet timer restarts (R138, R139). That
VARIANCE_CHECK before 600 s does nothing is the model's reading of a command that then cannot come (log
entry 3). -/
def Obligations.ProbesAndVarianceFollowTheSamples : Prop :=
  (∀ (s : State) (readings : Vector ProbeReading 3) (c : CompId) (k : CompParams), s.started = true →
    s.cp c = some k → ∃ t : State, exec (.probeSample readings) s = .next t ∧
      SampleTaken c k readings[c] s.stock.startedAt s t ∧
      t.comp c = { t.comp c with
        book := (s.comp c).book, quiet := (s.comp c).quiet
        varianceCount := (s.comp c).varianceCount, variance := (s.comp c).variance } ∧
      (∀ (l : Nat) (p : PointId), readings[c] = .level l → l ≤ 60000 → s.compartmentOf p = c →
        (s.role p = .delivery → strapped k.strapping l < k.reserve * 1000 →
          (s.point p).state.endable = true → t.closingWith p .lowLevel) ∧
        (s.role p = .receipt → k.highLevel ≤ l → (s.point p).state.endable = true →
          t.closingWith p .full) ∧
        (¬ (s.role p = .delivery ∧ strapped k.strapping l < k.reserve * 1000) →
          ¬ (s.role p = .receipt ∧ k.highLevel ≤ l) → (Part.point p).same s t)) ∧
      (∀ p : PointId, s.compartmentOf p = c → (∀ l : Nat, readings[c] = .level l → 60000 < l) →
        (Part.point p).same s t) ∧
      t.stock.probeLines = readings ∧ t.stock.startedAt = s.stock.startedAt ∧
      onlyChanges (everyComp ++ everyPoint ++ everyLine ++ [.probing, .attention, .flags]) s t) ∧
  (∀ (s : State) (readings : Vector ProbeReading 3), s.started = false → ∃ t : State,
    exec (.probeSample readings) s = .next t ∧ t.stock.probeLines = readings ∧
    t.stock.startedAt = s.stock.startedAt ∧ onlyChanges [.probing] s t) ∧
  (∀ (s : State) (c : CompId) (n : Nat), (s.comp c).quiet = some n → n < 600 → ∃ t : State,
    exec (.varianceCheck c) s = .next t ∧ onlyChanges [] s t) ∧
  (∀ (s : State) (c : CompId) (k : CompParams) (n : Nat), s.started = true → s.cp c = some k →
    (s.comp c).quiet = some n → 600 ≤ n → (s.comp c).probe ≠ .valid → ∃ t : State,
      exec (.varianceCheck c) s = .next t ∧ t.comp c = { s.comp c with quiet := some 0 } ∧
      onlyChanges [.comp c] s t) ∧
  (∀ (s : State) (c : CompId) (k : CompParams) (n v : Nat), s.started = true → s.cp c = some k →
    (s.comp c).quiet = some n → 600 ≤ n → (s.comp c).probe = .valid → (s.comp c).volume = some v →
    ∃ t : State, exec (.varianceCheck c) s = .next t ∧ (t.comp c).quiet = some 0 ∧
      (t.comp c).book = (s.comp c).book ∧
      (if ((v : Int) - (s.comp c).book).natAbs > k.tolerance * 1000 then
        (t.comp c).varianceCount = min 3 ((s.comp c).varianceCount + 1) ∧
          ((s.comp c).varianceCount = 2 → (t.comp c).variance = true) ∧
          ((s.comp c).varianceCount < 2 → (t.comp c).variance = (s.comp c).variance)
      else (t.comp c).varianceCount = 0 ∧ (t.comp c).variance = false) ∧
      onlyChanges [.comp c, .attention, .flags] s t)

/-- A hold goes when site time has reached its expiry, and no other hold with it (R77); a peer's restock
entry goes three tally periods after its last refresh, and at that removal the own entry, if it was kept
out of the queue while the request is active, is offered again (R144, R141). An ACTIVE peer not heard for three tally
periods becomes SILENT, which changes nothing else; one not heard for ten becomes LOST, gives up its holds
and its restock entry and raises LINK attention with its station ID (R115, R116). That each of these comes
with a command of its own, and that an own entry offered again takes the site time then as its refresh time,
are the model's (log entries 13 and 16). -/
def Obligations.PeersHoldsAndEntriesGoInTime : Prop :=
  ((∀ (s : State) (peer fleet : Nat), ∃ t : State, exec (.holdExpiry peer fleet) s = .next t ∧
    (∀ h : Hold, h ∈ t.allowance.holds ↔ h ∈ s.allowance.holds ∧
      ¬ (h.peer = peer ∧ h.fleet = fleet ∧ h.expiry ≤ s.now)) ∧
    t.allowance.contributions = s.allowance.contributions ∧ t.allowance.own = s.allowance.own ∧
    t.allowance.openPresets = s.allowance.openPresets ∧ onlyChanges [.allowance] s t) ∧
  (∀ (s : State) (e : RestockEntry), e ∈ s.stock.queue → e.station ≠ s.params.stationId →
    e.refresh + 3 * s.params.period ≤ s.now → ∃ t : State,
      exec (.restockEntryAgeing e.station) s = .next t ∧ onlyChanges [.restock, .attention] s t ∧
      (s.stock.active = false ∨ s.stock.displacedMark = false →
        ∀ x : RestockEntry, x ∈ t.stock.queue ↔ x ∈ s.stock.queue ∧ x.station ≠ e.station) ∧
      (s.stock.active = true → s.stock.displacedMark = true → s.stock.queue.length ≤ 16 →
        t.stock.displacedMark = false ∧ t.stock.active = true ∧
        ∀ x : RestockEntry, x ∈ t.stock.queue ↔
          (x ∈ s.stock.queue ∧ x.station ≠ e.station) ∨
            x = ⟨s.params.stationId, s.stock.ownFraction, s.now⟩))) ∧
  (∀ (s : State) (station heard : Nat), s.started = true → 1 ≤ station → station ≤ 32 →
    (s.peer station).heard = some heard →
    ((s.peer station).state = .active → heard + 3 * s.params.period ≤ s.now → ∃ t : State,
      exec (.peerSilent station) s = .next t ∧
      t.peer station = { s.peer station with state := .silent } ∧ onlyChanges [.peers] s t) ∧
    ((s.peer station).state = .active ∨ (s.peer station).state = .silent →
      heard + 10 * s.params.period ≤ s.now → ∃ t : State,
        exec (.peerLost station) s = .next t ∧
        t.peer station = { s.peer station with state := .lost } ∧
        (∀ h : Hold, h ∈ t.allowance.holds ↔ h ∈ s.allowance.holds ∧ h.peer ≠ station) ∧
        t.allowance.contributions = s.allowance.contributions ∧
        (station ≠ s.params.stationId → ∀ x ∈ t.stock.queue, x.station ≠ station) ∧
        station ∈ t.port.attention.link.lost ∧
        onlyChanges [.peers, .allowance, .restock, .attention] s t))

/-! ### The site link -/

/-- The transmitter: a first attempt, and any of an urgent part, sends when its quiet wait completes; one of
a bulletin with busy findings draws a backoff below 2 to its exponent, at most 5, and sends at once when it
draws 0 (the draw is a free value, log entry 6). A carrier that appears makes a busy finding and defers the
attempt, or drops the bulletin at its eighth, the next head then meeting the carrier at once; its dropping
begins the next attempt; a backoff that ends sends; the end of a transmission takes the bulletin from the
queue and begins the first attempt of the next, which a carrier then present makes a busy finding (R95, R96,
R97, R98, R99). Where the part of the tally round in progress that was queued last leaves, the next part is
queued, or the round ends after the last; any other bulletin, a part of an ended round among them, queues nothing
as it leaves; a normal round due starts as the queue becomes empty (R93, R122, R124, R125). That at a drop the
next attempt begins before the leaving is reported is the model's reading (log entry 17). -/
def Obligations.TransmitterFollowsTheCarrier : Prop :=
  ∀ (s : State) (q : Queued) (rest : List Queued), s.link.queue = q :: rest →
    (s.link.tx = .quiet → q.busy = 0 ∨ q.urgent = true → ∃ t : State,
      exec .quietWaitComplete s = .next t ∧ t.link.tx = .sending ∧ t.link.air = q.bulletin.air ∧
      t.link.queue = s.link.queue ∧ onlyChanges [.link] s t) ∧
    (s.link.tx = .quiet → 1 ≤ q.busy → q.urgent = false → ∃ t : State,
      exec .quietWaitComplete s = .next t ∧ t.link.draw < 2 ^ min q.busy 5 ∧
      (if t.link.draw = 0 then t.link.tx = .sending ∧ t.link.air = q.bulletin.air
       else t.link.tx = .backoff ∧ t.link.air = s.link.air) ∧
      t.link.queue = s.link.queue ∧ onlyChanges [.link, .free] s t) ∧
    (s.link.tx = .backoff → ∃ t : State, exec .backoffEnd s = .next t ∧
      t.link.tx = .sending ∧ t.link.air = q.bulletin.air ∧ t.link.queue = s.link.queue ∧
      onlyChanges [.link] s t) ∧
    (s.link.tx = .quiet ∨ s.link.tx = .backoff → s.link.carrier = false → q.busy < 7 →
      ∃ t : State, exec .carrierAppears s = .next t ∧ t.link.carrier = true ∧ t.link.tx = .defer ∧
        t.link.queue = { q with busy := q.busy + 1 } :: rest ∧
        t.link.counters = { s.link.counters with busy := min 4294967295 (s.link.counters.busy + 1) } ∧
        onlyChanges [.link] s t) ∧
    (s.link.tx = .quiet ∨ s.link.tx = .backoff → s.link.carrier = false → 7 ≤ q.busy →
      (∀ r : Round, ¬ s.partOfRound q.bulletin r) →
      s.peers.pendingCount = 0 ∨ s.peers.round ≠ none ∨ rest ≠ [] → (∀ x ∈ rest.head?, x.busy < 7) →
      ∃ t : State, exec .carrierAppears s = .next t ∧ t.link.carrier = true ∧
        t.link.counters = { s.link.counters with
          busy := min 4294967295 (s.link.counters.busy + (if rest = [] then 1 else 2))
          dropped := min 4294967295 (s.link.counters.dropped + 1) } ∧
        (match rest with
          | [] => t.link.tx = .idle ∧ t.link.queue = []
          | x :: others => t.link.tx = .defer ∧
              t.link.queue = { x with busy := x.busy + 1 } :: others) ∧
        onlyChanges [.link] s t) ∧
    (s.link.tx = .defer → s.link.carrier = true → ∃ t : State,
      exec .carrierDrops s = .next t ∧ t.link.carrier = false ∧ t.link.tx = .quiet ∧
        t.link.queue = s.link.queue ∧ t.link.jammed = false ∧ onlyChanges [.link] s t) ∧
    (s.link.tx = .sending → rest = [] → (∀ r : Round, ¬ s.partOfRound q.bulletin r) →
      s.peers.pendingCount = 0 ∨ s.peers.round ≠ none →
      ∃ t : State, exec .transmissionEnd s = .next t ∧ t.link.tx = .idle ∧ t.link.queue = [] ∧
        t.link.counters = { s.link.counters with
          transmitted := min 4294967295 (s.link.counters.transmitted + 1) } ∧
        onlyChanges [.link] s t) ∧
    (∀ (x : Queued) (others : List Queued), s.link.tx = .sending → rest = x :: others → x.busy < 7 →
      (∀ r : Round, ¬ s.partOfRound q.bulletin r) → ∃ t : State, exec .transmissionEnd s = .next t ∧
        (if s.link.carrier = true then
          t.link.tx = .defer ∧ t.link.queue = { x with busy := x.busy + 1 } :: others
        else t.link.tx = .quiet ∧ t.link.queue = rest) ∧
        t.link.counters = { s.link.counters with
          transmitted := min 4294967295 (s.link.counters.transmitted + 1)
          busy := if s.link.carrier = true then min 4294967295 (s.link.counters.busy + 1)
            else s.link.counters.busy } ∧
        onlyChanges [.link] s t) ∧
    (s.link.tx = .sending → rest = [] → s.peers.round = none → 1 ≤ s.peers.pendingCount →
      s.peers.tallyTimer = true → ∃ t : State, exec .transmissionEnd s = .next t ∧
        RoundBegins s.link.carrier s t ∧ onlyChanges [.link, .peers] s t) ∧
    (∀ r : Round, s.partOfRound q.bulletin r → rest.length < 8 → (∀ x ∈ rest.head?, x.busy < 7) →
      (s.link.tx = .sending → ∃ t : State, exec .transmissionEnd s = .next t ∧
        RoundGoesOn r s.link.carrier rest rest s t ∧
        t.link.counters.transmitted = min 4294967295 (s.link.counters.transmitted + 1) ∧
        onlyChanges [.link, .peers] s t) ∧
      (s.link.tx = .quiet ∨ s.link.tx = .backoff → s.link.carrier = false → 7 ≤ q.busy →
        ∃ t : State, exec .carrierAppears s = .next t ∧ t.link.carrier = true ∧
          RoundGoesOn r true rest (met true rest) s t ∧
          t.link.counters.dropped = min 4294967295 (s.link.counters.dropped + 1) ∧
          onlyChanges [.link, .peers] s t))

/-- 7Eh directly after AAh starts a frame. A character of a frame is taken until the header is complete
and as many follow as its length says; a length above 240 ends the frame with LENGTH_ERROR, a CRC that does
not agree with CRC_ERROR, one that agrees with GOOD and its header and body; a gap in a frame ends it with
GAP_ERROR. An ended frame takes the next slot of the ring, or is dropped at a full ring with a count and
LINK attention. No character is taken without its stop bit, while the receiver is off or during SENDING,
and a frame in assembly when the transmitter enters SENDING is discarded without status or count (R101,
R102, R189). That a character without its stop bit does not change whether the one before was AAh, and that
after a frame the one before counts as not AAh, are the model's reading (log entry 22); that the receiver is put
to HUNT as SENDING is entered, and not only at the end of the transmission, is the model's choice (log entry 30).
A jam holds JAMMED; DUPLICATE_ID ceases (R100, R105). A frame taken from the ring with
an error status is counted and reaches no other block (R103). -/
def Obligations.ReceiverEndsFramesWithAStatus : Prop :=
  ((∀ (s : State) (c : Byte), s.link.rx = .hunt → s.link.tx ≠ .sending → ∃ t : State,
    exec (.linkCharacterReceived c true) s = .next t ∧ onlyChanges [.link] s t ∧
    t.link = (if s.link.lastAA = true ∧ c = 0x7E then
        { s.link with rx := .frame, frame := [], lastAA := false }
      else { s.link with lastAA := decide (c = 0xAA) })) ∧
  (∀ (s : State) (c : Byte), s.link.rx = .frame → s.link.tx ≠ .sending → ∃ t : State,
    exec (.linkCharacterReceived c true) s = .next t ∧
    (let f := s.link.frame ++ [c]
     let n := 10 + (f.getD 9 0).toNat
     if f.length < 10 then
       t.link = { s.link with frame := f } ∧ onlyChanges [.link] s t
     else if f.length = 10 ∧ 240 < (f.getD 9 0).toNat then FrameEnded s t ⟨.lengthError, []⟩
     else if f.length < n + 2 then
       t.link = { s.link with frame := f } ∧ onlyChanges [.link] s t
     else if ofBe (f.drop n) = (crc16 (f.take n)).toNat then FrameEnded s t ⟨.good, f.take n⟩
     else FrameEnded s t ⟨.crcError, []⟩)) ∧
  (∀ (s : State) (c : Byte) (stopBit : Bool),
    stopBit = false ∨ s.link.tx = .sending ∨ s.link.rx = .off → ∃ t : State,
      exec (.linkCharacterReceived c stopBit) s = .next t ∧ onlyChanges [] s t) ∧
  (∀ s : State, s.link.rx = .frame → s.link.tx ≠ .sending → ∃ t : State,
    exec .gapError s = .next t ∧ FrameEnded s t ⟨.gapError, []⟩) ∧
  (∀ s : State, s.link.rx = .frame → s.link.tx = .backoff → s.link.queue ≠ [] → ∃ t : State,
    exec .backoffEnd s = .next t ∧ t.link.tx = .sending ∧ t.link.rx = .hunt ∧ t.link.frame = [] ∧
    t.link.ring = s.link.ring ∧ t.link.counters = s.link.counters ∧ onlyChanges [.link] s t) ∧
  (∀ s : State, s.link.jamTimer = true → s.link.jammed = false → ∃ t : State,
    exec .jammed s = .next t ∧ t.link.jammed = true ∧
    t.link.counters.jam = min 4294967295 (s.link.counters.jam + 1) ∧
    t.port.flags.jammed = true ∧ t.port.attention.link.jammed = true ∧
    onlyChanges [.link, .attention, .flags] s t) ∧
  (∀ s : State, ∃ t : State, exec .duplicateIdCeases s = .next t ∧
    t.link = { s.link with duplicate := false } ∧ onlyChanges [.link] s t)) ∧
  (∀ (s : State) (x : RingSlot) (rest : List RingSlot), s.link.ring = x :: rest → x.status ≠ .good →
    ∃ t : State, exec .frameTaken s = .next t ∧ t.link.ring = rest ∧ t.link.queue = s.link.queue ∧
      t.link.counters = (match x.status with
        | .crcError => { s.link.counters with
            crcErrors := min 4294967295 (s.link.counters.crcErrors + 1) }
        | .lengthError => { s.link.counters with
            lengthErrors := min 4294967295 (s.link.counters.lengthErrors + 1) }
        | .gapError => { s.link.counters with
            gapErrors := min 4294967295 (s.link.counters.gapErrors + 1) }
        | .good => s.link.counters) ∧ onlyChanges [.link] s t)

/-- A frame of another site is discarded without a count; one of the own site that fails the format check
is counted as a format error; one that carries the own ID is counted, and DUPLICATE_ID holds, with its flag
and LINK attention at the passage (R104, R105). A good bulletin of the own site is counted, and before START
no more is done with it (R106). One of any kind taken from an ACTIVE or SILENT peer under
its epoch is judged by its distance: 0 is a duplicate, 128 or more is stale, and neither goes further
(R106, R112). A BAY_DONE in between is accepted with its gap counted, and removes the peer's restock entry
(R112, R113, R142). A BAY_DONE of a peer UNKNOWN, LOST or under another epoch starts the entry afresh with
gap counts 15 and 0; of a peer that was ACTIVE or SILENT the holds and the restock entry go, and an epoch
change is counted (R111). A bulletin of any kind with a higher shift number brings the rollover to that
shift, counted as adopted, before it is judged, and the own deliveries now open are announced again with their
remaining presets (R110, R120, R89). That a normal round due at that moment starts after the rollover's last step
is the model's reading (log entry 17). -/
def Obligations.BulletinsAreJudgedByDistance : Prop :=
  (∀ (s : State) (f : List Byte) (rest : List RingSlot), s.link.ring = ⟨.good, f⟩ :: rest →
    10 ≤ f.length → ∃ t : State, exec .frameTaken s = .next t ∧
      if ofBe (f.take 2) ≠ s.params.siteCode then
        t.link = { s.link with ring := rest } ∧ onlyChanges [.link] s t
      else
        (¬ wellFormedFrame f →
          t.link = { s.link with
            ring := rest
            counters := { s.link.counters with
              formatErrors := min 4294967295 (s.link.counters.formatErrors + 1) } } ∧
          onlyChanges [.link] s t) ∧
        (wellFormedFrame f → (f.getD 2 0).toNat = s.params.stationId →
          t.link = { s.link with
            ring := rest, duplicate := true
            counters := { s.link.counters with
              duplicateId := min 4294967295 (s.link.counters.duplicateId + 1) } } ∧
          (s.link.duplicate = true → onlyChanges [.link] s t) ∧
          (s.link.duplicate = false → t.port.flags = { s.port.flags with duplicate := true } ∧
            t.port.attention = { s.port.attention with
              link := { s.port.attention.link with duplicate := true } } ∧
            onlyChanges [.link, .flags, .attention] s t)) ∧
        (wellFormedFrame f → (f.getD 2 0).toNat ≠ s.params.stationId → s.started = false →
          t.link = { s.link with
            ring := rest
            counters := { s.link.counters with
              good := min 4294967295 (s.link.counters.good + 1) } } ∧
          onlyChanges [.link] s t)) ∧
  (∀ (s : State) (b : Bulletin) (rest : List RingSlot) (last : Nat), s.hears b rest →
    b.shift ≤ s.shiftNo → s.follows b last → b.distance last = 0 ∨ 128 ≤ b.distance last →
    ∃ t : State, exec .frameTaken s = .next t ∧
      t.peer b.station = { s.peer b.station with state := .active, heard := some s.now } ∧
      (if b.distance last = 0 then
        t.peers.duplicates = min 65535 (s.peers.duplicates + 1) ∧ t.peers.stale = s.peers.stale
      else
        t.peers.stale = min 65535 (s.peers.stale + 1) ∧ t.peers.duplicates = s.peers.duplicates) ∧
      t.link.counters.good = min 4294967295 (s.link.counters.good + 1) ∧ t.link.ring = rest ∧
      onlyChanges [.link, .peers] s t) ∧
  (∀ (s : State) (b : Bulletin) (rest : List RingSlot) (last : Nat), s.hears b rest →
    b.body = .bayDone → b.shift ≤ s.shiftNo → s.follows b last → 1 ≤ b.distance last →
    b.distance last ≤ 127 → ∃ t : State, exec .frameTaken s = .next t ∧
      t.peer b.station = s.accepted b (b.distance last) ∧
      t.peers.duplicates = s.peers.duplicates ∧ t.peers.stale = s.peers.stale ∧
      (∀ x ∈ t.stock.queue, x.station ≠ b.station) ∧
      (s.stock.active = false → ∀ x : RestockEntry,
        x ∈ t.stock.queue ↔ x ∈ s.stock.queue ∧ x.station ≠ b.station) ∧
      t.link.counters.good = min 4294967295 (s.link.counters.good + 1) ∧ t.link.ring = rest ∧
      onlyChanges [.link, .peers, .restock, .attention] s t) ∧
  (∀ (s : State) (b : Bulletin) (rest : List RingSlot), s.hears b rest → b.body = .bayDone →
    b.shift ≤ s.shiftNo →
    (s.peer b.station).state = .unknown ∨ (s.peer b.station).state = .lost ∨
      (s.peer b.station).epoch ≠ some b.epoch → ∃ t : State, exec .frameTaken s = .next t ∧
      t.peer b.station = ⟨.active, some b.epoch, some b.seq, 15, 0, none, none, 0, false, some s.now⟩ ∧
      (∀ x ∈ t.stock.queue, x.station ≠ b.station) ∧
      (if (s.peer b.station).state = .active ∨ (s.peer b.station).state = .silent then
        t.peers.epochChanges = min 65535 (s.peers.epochChanges + 1) ∧
        t.allowance = { s.allowance with
          holds := s.allowance.holds.filter (fun h => decide (h.peer ≠ b.station)) }
      else t.peers.epochChanges = s.peers.epochChanges ∧ t.allowance = s.allowance) ∧
      t.link.ring = rest ∧ onlyChanges [.link, .peers, .allowance, .restock, .attention] s t) ∧
  (∀ (s : State) (b : Bulletin) (rest : List RingSlot), s.hears b rest → s.shiftNo < b.shift →
    ∃ t : State, exec .frameTaken s = .next t ∧ t.peers.shift = some b.shift ∧
      t.peers.adopted = min 65535 (s.peers.adopted + 1) ∧ t.allowance.own = [] ∧
      t.allowance.openPresets = s.allowance.openPresets ∧
      (∀ a : Fin 32, t.journal.accounts[a] = ⟨0, 0, 0⟩) ∧ t.journal.figures = .zero ∧
      t.link.ring = rest ∧ RolloverQueued b.shift s t ∧
      (b.body = .bayDone → t.allowance.contributions = [] ∧ t.allowance.holds = []))

/-- An accepted OPEN of the own shift sets the hold of its machine: at most 20,000,000 mL, for at most an
hour; with a lifetime of 0 it removes it. An accepted CLOSE of the own shift takes its cumulative as the
peer's contribution, never lowering it, and removes the hold. A fleet number outside the roster is only
counted; one that finds the table or the list full is refused, counted, adds a gap to the peer and raises
VIEW_FULL with LINK attention; the entry that fills either sets the flag. One of a lower shift is not
absorbed (R71 to R76, R86, R113). An expiry past 4,294,967,295 is held as the whole sum, the model's choice (log
entry 21). The same holds of a sender followed under its epoch and of one whose
entry starts afresh, its holds and restock entry, when it was ACTIVE or SILENT, going first (R111, R112). -/
def Obligations.OpenAndCloseAreAbsorbed : Prop :=
  (∀ (s : State) (b : Bulletin) (rest : List RingSlot) (x : Peer) (a : Allowance)
    (fleet volume lifetime no : Nat),
    s.hears b rest → b.body = .openFill fleet volume lifetime no → b.shift ≤ s.shiftNo →
    s.accepts b x a → ∃ t : State, exec .frameTaken s = .next t ∧
      EpochChangeCounted b s t ∧ RestockForgotten b s t ∧
      onlyChanges [.link, .peers, .allowance, .restock, .flags, .attention] s t ∧
      (let known := { s.port.attention with stock := t.port.attention.stock }
       let mine (h : Hold) : Bool := decide (h.peer = b.station ∧ h.fleet = fleet)
       let hold : Hold := ⟨b.station, fleet, min volume 20000000, s.now + min lifetime 3600⟩
       let heard := t.peer b.station = x ∧ t.port.attention = known
       if b.shift < s.shiftNo then
         heard ∧ t.allowance = a ∧ t.port.flags = s.port.flags
       else if s.machineByFleet fleet = none then
         heard ∧ t.allowance = { a with unknownFleet := min 65535 (a.unknownFleet + 1) } ∧
           t.port.flags = s.port.flags
       else if lifetime = 0 then
         heard ∧ t.allowance = { a with holds := a.holds.filter (fun h => !mine h) } ∧
           t.port.flags = s.port.flags
       else if a.holds.any mine = true then
         heard ∧ t.allowance = { a with holds := a.holds.map (fun h => if mine h then hold else h) } ∧
           t.port.flags = s.port.flags
       else if a.holds.length < 32 then
         heard ∧ t.allowance = { a with holds := a.holds ++ [hold] } ∧
           t.port.flags = { s.port.flags with
             viewFull := s.port.flags.viewFull ||
               decide (512 ≤ a.contributions.length ∨ 32 ≤ a.holds.length + 1) }
       else
         t.peer b.station = { x with g := min 15 (x.g + 1), h := min 15 (x.h + 1) } ∧
           t.allowance = { a with holdRefusals := min 65535 (a.holdRefusals + 1) } ∧
           t.port.flags = { s.port.flags with viewFull := true } ∧
           t.port.attention = { known with
             link := { s.port.attention.link with viewFull := true } })) ∧
  (∀ (s : State) (b : Bulletin) (rest : List RingSlot) (x : Peer) (a : Allowance)
    (fleet cumulative net no : Nat),
    s.hears b rest → b.body = .closeFill fleet cumulative net no → b.shift ≤ s.shiftNo →
    s.accepts b x a → ∃ t : State, exec .frameTaken s = .next t ∧
      EpochChangeCounted b s t ∧ RestockForgotten b s t ∧
      onlyChanges [.link, .peers, .allowance, .restock, .flags, .attention] s t ∧
      (let known := { s.port.attention with stock := t.port.attention.stock }
       let v := min cumulative 2147483647
       let mine (c : Contribution) : Bool := decide (c.peer = b.station ∧ c.fleet = fleet)
       let holds := a.holds.filter (fun h => !decide (h.peer = b.station ∧ h.fleet = fleet))
       let heard := t.peer b.station = x ∧ t.port.attention = known
       if b.shift < s.shiftNo then
         heard ∧ t.allowance = a ∧ t.port.flags = s.port.flags
       else if s.machineByFleet fleet = none then
         heard ∧ t.allowance = { a with unknownFleet := min 65535 (a.unknownFleet + 1) } ∧
           t.port.flags = s.port.flags
       else if a.contributions.any mine = true then
         heard ∧ t.port.flags = s.port.flags ∧ t.allowance = { a with
           holds := holds
           contributions := a.contributions.map
             (fun c => if mine c then { c with value := max c.value v } else c) }
       else if v = 0 then
         heard ∧ t.allowance = { a with holds := holds } ∧ t.port.flags = s.port.flags
       else if a.contributions.length < 512 then
         heard ∧
           t.allowance = { a with
             holds := holds, contributions := a.contributions ++ [⟨b.station, fleet, v⟩] } ∧
           t.port.flags = { s.port.flags with
             viewFull := s.port.flags.viewFull ||
               decide (512 ≤ a.contributions.length + 1 ∨ 32 ≤ a.holds.length) }
       else
         t.peer b.station = { x with g := min 15 (x.g + 1), h := min 15 (x.h + 1) } ∧
           t.allowance = { a with
             holds := holds
             contributionRefusals := min 65535 (a.contributionRefusals + 1) } ∧
           t.port.flags = { s.port.flags with viewFull := true } ∧
           t.port.attention = { known with
             link := { s.port.attention.link with viewFull := true } }))

/-- An accepted TALLY part of a round the entry does not hold begins that round; its part is marked, and
with the last part the round completes and the gap count of the peer takes the count of the round (R114).
In the own shift each entry of a roster machine is absorbed as a report, and one of a lower shift is not
(R72, R74, R113). The restock fraction of a TALLY part or a BAY_ASK refreshes the entry of the sender or
creates one, at most 1,000, in the order of the queue; in a full queue a new entry displaces the last one
or is refused; a TALLY without a fraction removes the entry. The own request is not active there (R141,
R142, R143). The same holds of a sender followed under its epoch and of one whose entry starts afresh, its holds
and restock entry, when it was ACTIVE or SILENT, going first (R111, R112). -/
def Obligations.TalliesAndFractionsAreTaken : Prop :=
  (∀ (s : State) (b : Bulletin) (rest : List RingSlot) (x : Peer) (a : Allowance)
    (r i n : Nat) (fr : Option Nat) (es : List (Nat × Nat)), s.hears b rest → b.body = .tally r i n fr es → b.shift ≤ s.shiftNo →
    s.accepts b x a →
    s.allowance.contributions.length + es.length ≤ 512 → ∃ t : State,
      exec .frameTaken s = .next t ∧
      onlyChanges [.link, .peers, .allowance, .restock, .flags, .attention] s t ∧
      EpochChangeCounted b s t ∧
      (let y := if x.round = some r ∧ x.parts = some n then x
         else { x with round := some r, parts := some n, mask := 0, complete := false, h := 0 }
       let mask := y.mask ||| ((1 : BitVec 14) <<< i)
       (y.complete = false ∧ (∀ j : Nat, j < n → mask.getLsbD j = true) →
         t.peer b.station = { y with mask := mask, complete := true, g := y.h }) ∧
       (¬ (y.complete = false ∧ (∀ j : Nat, j < n → mask.getLsbD j = true)) →
         t.peer b.station = { y with mask := mask })) ∧
      t.allowance.own = s.allowance.own ∧ t.allowance.holds = a.holds ∧
      t.allowance.openPresets = s.allowance.openPresets ∧
      t.allowance.contributionRefusals = s.allowance.contributionRefusals ∧
      if b.shift < s.shiftNo then t.allowance = a
      else
        (∀ e ∈ es, (s.machineByFleet e.1).isSome = true → 0 < e.2 →
          ∃ c ∈ t.allowance.contributions, c.peer = b.station ∧ c.fleet = e.1 ∧
            min e.2 2147483647 ≤ c.value) ∧
        (∀ c ∈ s.allowance.contributions, ∃ c' ∈ t.allowance.contributions,
          c'.peer = c.peer ∧ c'.fleet = c.fleet ∧ c.value ≤ c'.value) ∧
        (∀ c ∈ t.allowance.contributions, c ∈ s.allowance.contributions ∨
          (c.peer = b.station ∧ (s.machineByFleet c.fleet).isSome = true ∧
            ∃ e ∈ es, e.1 = c.fleet ∧ c.value = min e.2 2147483647))) ∧
  (∀ (s : State) (b : Bulletin) (rest : List RingSlot) (x : Peer) (a : Allowance) (fr : Option Nat),
    s.hears b rest →
    (∃ fraction : Nat, b.body = .bayAsk fraction ∧ fr = some fraction) ∨
      (∃ (r i n : Nat) (es : List (Nat × Nat)), b.body = .tally r i n fr es) →
    b.shift ≤ s.shiftNo → s.accepts b x a →
    s.stock.active = false → s.stock.queue.length ≤ 16 →
    s.stock.queue.Pairwise (fun x y => x.fraction < y.fraction ∨
      (x.fraction = y.fraction ∧ x.station < y.station)) → ∃ t : State,
      exec .frameTaken s = .next t ∧
      t.stock.queue.Pairwise (fun x y => x.fraction < y.fraction ∨
        (x.fraction = y.fraction ∧ x.station < y.station)) ∧
      (match fr with
      | none => (∀ x : RestockEntry, x ∈ t.stock.queue ↔
          x ∈ s.stock.queue ∧ x.station ≠ b.station)
      | some fraction =>
        (let e : RestockEntry := ⟨b.station, min fraction 1000, s.now⟩
         if (∃ x ∈ s.stock.queue, x.station = b.station) ∨ s.stock.queue.length < 16 then
           (∀ x : RestockEntry, x ∈ t.stock.queue ↔
             x = e ∨ (x ∈ s.stock.queue ∧ x.station ≠ b.station)) ∧
           t.stock.displaced = s.stock.displaced ∧ t.stock.refused = s.stock.refused
         else ∃ z : RestockEntry, s.stock.queue.getLast? = some z ∧
           if e.fraction < z.fraction ∨ (e.fraction = z.fraction ∧ e.station < z.station) then
             (∀ x : RestockEntry, x ∈ t.stock.queue ↔ x = e ∨ (x ∈ s.stock.queue ∧ x ≠ z)) ∧
             t.stock.displaced = min 65535 (s.stock.displaced + 1) ∧
             t.stock.refused = s.stock.refused
           else t.stock.queue = s.stock.queue ∧ t.stock.displaced = s.stock.displaced ∧
             t.stock.refused = min 65535 (s.stock.refused + 1))))

/-! ### Time, peers, tallies -/

/-- SITE_TIME_TICK adds a second to a site time that is set, up to 4,294,967,295; when it brings a clock
shift above the shift number the rollover takes that shift, zeroes the totals and the gap counts and
empties the view, and announces the own deliveries now open again with their remaining presets (R89); otherwise
the shift stands, and of the view only the holds past their expiry go (R117,
R119, R120, R77). The second is counted by the quiet timers, up to 600, and in RUN and PARKED by the check
timer, down to 0 (R138, R174). TALLY_TIMER_EXPIRY ends
warm-up and counts the period: the third pending period starts an urgent round, its first part ahead of the
queue but behind a bulletin in SENDING (R99); fewer start a normal round
when the queue is empty and no round is in progress, and only wait while bulletins wait in the queue or a round
is in progress. A round
takes the next number and the machines with an own total, and its first part is queued with the first 39 of
them and the restock fraction (R121, R122, R123, R124, R91). That a hold still stands at its very expiry, and
peers and restock entries at the tick that reaches their moment, and that the two timers count site seconds,
are the model's choices (log entries 13 and 3); that a normal round due at a rollover starts only after its last
step is its reading (log entry 17). -/
def Obligations.TimeAdvancesShiftsAndTallies : Prop :=
  (∀ (s : State) (time : Nat), s.peers.siteTime = some time → ∃ t : State,
    exec .siteTimeTick s = .next t ∧ t.peers.siteTime = some (min 4294967295 (time + 1)) ∧
    (let shift := clockShift s.params.shiftStarts (min 4294967295 (time + 1))
     if s.started = true ∧ shift > s.shiftNo then
       t.peers.shift = some shift ∧ t.allowance.own = [] ∧ t.allowance.contributions = [] ∧
         t.allowance.holds = [] ∧ t.allowance.openPresets = s.allowance.openPresets ∧
         (∀ i : Fin 32, t.peers.table[i].g = 0 ∧ t.peers.table[i].h = 0) ∧
         (∀ a : Fin 32, t.journal.accounts[a] = ⟨0, 0, 0⟩) ∧ t.journal.figures = .zero ∧
         (s.freeSlots ≠ 0 → ∃ r : Record,
           slotAt t.rm.slots s.journal.writePosition = some ⟨true, r⟩ ∧ r.shift = s.peers.shift ∧
           r.body = .shiftClose s.shiftNo s.journal.figures.nets s.journal.figures.deliveries
             s.journal.figures.voids) ∧ RolloverQueued shift s t
     else
       t.peers = { s.peers with siteTime := some (min 4294967295 (time + 1)) } ∧
         t.allowance = { s.allowance with
           holds := s.allowance.holds.filter
             (fun h => decide (min 4294967295 (time + 1) ≤ h.expiry)) } ∧
         (∀ c : CompId, t.comp c = { s.comp c with
           quiet := (s.comp c).quiet.map (fun n => min 600 (n + 1)) }) ∧
         t.metrology = (if s.mode = .run ∨ s.mode = .parked then
           { s.metrology with timer := s.metrology.timer.map (fun n => n - 1) } else s.metrology) ∧
         onlyChanges ([.peers, .metrology, .allowance] ++ everyComp) s t)) ∧
  ∀ s : State, s.peers.tallyTimer = true →
    (2 ≤ s.peers.pendingCount → ∃ t : State, exec .tallyTimerExpiry s = .next t ∧
      t.peers.warmUp = false ∧ t.peers.pendingCount = 0 ∧
      t.peers.nextRound = (s.peers.nextRound + 1) % 256 ∧
      (s.link.queue.length < 8 →
        (let list := s.allowance.own.map Prod.fst
         let parts := if list = [] then 1 else (list.length + 38) / 39
         t.peers = { s.peers with
           warmUp := false, pendingCount := 0, nextRound := (s.peers.nextRound + 1) % 256
           round := some ⟨s.peers.nextRound, list, parts, 1, true⟩ } ∧
         ∃ q : Queued, q.urgent = true ∧
           t.link.queue = (if s.link.tx = .sending then
               s.link.queue.take 1 ++ q :: s.link.queue.drop 1 else q :: s.link.queue) ∧
           q.bulletin = ⟨s.params.siteCode, s.params.stationId, s.metrology.epoch, s.link.nextSeq,
             s.shiftNo, .tally s.peers.nextRound 0 parts
               (if s.stock.active = true then some s.ownFractionNow else none)
               ((list.take 39).map (fun fleet => (fleet, s.allowance.ownTotal fleet)))⟩)) ∧
      onlyChanges [.peers, .link] s t) ∧
    (s.peers.pendingCount ≤ 1 → s.link.queue ≠ [] ∨ s.peers.round ≠ none → ∃ t : State,
      exec .tallyTimerExpiry s = .next t ∧
      t.peers = { s.peers with warmUp := false, pendingCount := s.peers.pendingCount + 1 } ∧
      onlyChanges [.peers] s t) ∧
    (s.peers.pendingCount ≤ 1 → s.link.queue = [] → s.peers.round = none → ∃ t : State,
      exec .tallyTimerExpiry s = .next t ∧
      (let list := s.allowance.own.map Prod.fst
       let parts := if list = [] then 1 else (list.length + 38) / 39
       t.peers = { s.peers with
         warmUp := false, pendingCount := 0, nextRound := (s.peers.nextRound + 1) % 256
         round := some ⟨s.peers.nextRound, list, parts, 1, false⟩ } ∧
       ∃ q : Queued, t.link.queue = [q] ∧ q.urgent = false ∧
         q.bulletin = ⟨s.params.siteCode, s.params.stationId, s.metrology.epoch, s.link.nextSeq,
           s.shiftNo, .tally s.peers.nextRound 0 parts
             (if s.stock.active = true then some s.ownFractionNow else none)
             ((list.take 39).map (fun fleet => (fleet, s.allowance.ownTotal fleet)))⟩) ∧
      onlyChanges [.peers, .link] s t)

/-! ### Metrology -/

/-- CHECK_TIMER_EXPIRY, when the timer has run its 60 min, begins a check and starts the timer again, or
leaves one pending; that it does nothing before is the model's reading of a command that then cannot come
(log entry 3). A check that passes makes the metrology status GOOD; one that finds a mismatch makes it FAILED, halts the machine,
closes every valve, ends every open, unclosed fill with HALT, refuses every waiting IDENT or OFFERED point
with HALTED, keeps the codes, clears a pending park and raises HALT attention (R173, R174, R36, R185). The time of the check is that of
its completion, the model's choice (log entry 32). The two operands of METROLOGY_CHECK_COMPLETE, which say what the memories now return, are the
model's (log entry 11). -/
def Obligations.MetrologyMismatchHalts : Prop :=
  (∀ (s : State) (n : Nat), s.metrology.timer = some (n + 1) → ∃ t : State,
    exec .checkTimerExpiry s = .next t ∧ onlyChanges [] s t) ∧
  (∀ s : State, s.mode = .run ∨ s.mode = .parked → s.metrology.timer = some 0 →
    ∃ t : State, exec .checkTimerExpiry s = .next t ∧
      t.metrology = (if s.metrology.checking then { s.metrology with checkPending := true }
        else { s.metrology with checking := true, timer := some 3600 }) ∧
      onlyChanges [.metrology] s t) ∧
  (∀ (s : State) (changed : List Host.Cell) (worn : BitVec 32), s.mode = .run ∨ s.mode = .parked →
    s.metrology.checking = true →
    ∃ (t : State) (c : Codes), exec (.metrologyCheckComplete changed worn) s = .next t ∧
      t.rm = s.rm.readAgain changed ∧
      c = ({ s with rm := s.rm.readAgain changed } : State).checkCodes worn ∧
      if s.metrology.reference = some c.stored ∧ c.memory = c.stored ∧ c.working = c.stored then
        t.metrology.status = .good ∧ t.metrology.last = some ⟨s.peers.siteTime, true⟩ ∧
          t.metrology.checking = s.metrology.checkPending ∧ t.metrology.checkPending = false ∧
          onlyChanges [.metrology, .rm] s t
      else
        t.mode = .halted ∧ t.port.parkPending = false ∧ t.metrology.status = .failed ∧ t.metrology.codes = some c ∧
          t.metrology.last = some ⟨s.peers.siteTime, false⟩ ∧ t.port.attention.halt = some c ∧
          (∀ p : PointId, (t.point p).valve = .closed ∧ (t.line p).powered = false) ∧
          (∀ p : PointId, (s.point p).state.endable = true →
            (t.point p).state = .closing ∧ (t.point p).ctx.endReason = some .halt) ∧
          (∀ p : PointId, (s.point p).state = .ident ∨ (s.point p).state = .offered → s.waits p →
            (t.point p).state = .refused ∧ (t.point p).ctx.refusal = some .halted))
end

