-- ==== Sys2Proof/Laws/State.lean ====
section
/-! SUPPORT. One lemma for each field of the state and each update, and what the accessors of points,
lines, channels and compartments read after an update. -/

namespace Sys2Proof.Machine

variable (s : State)

@[simp] theorem State.setMode_pending (m : Mode) : (s.setMode m).pending = s.pending := rfl
@[simp] theorem State.setMode_powered (m : Mode) : (s.setMode m).powered = s.powered := rfl
@[simp] theorem State.setMode_mode (m : Mode) : (s.setMode m).mode = m := rfl
@[simp] theorem State.setMode_params (m : Mode) : (s.setMode m).params = s.params := rfl
@[simp] theorem State.setMode_scanner (m : Mode) : (s.setMode m).scanner = s.scanner := rfl
@[simp] theorem State.setMode_lines (m : Mode) : (s.setMode m).lines = s.lines := rfl
@[simp] theorem State.setMode_points (m : Mode) : (s.setMode m).points = s.points := rfl
@[simp] theorem State.setMode_meters (m : Mode) : (s.setMode m).meters = s.meters := rfl
@[simp] theorem State.setMode_allowance (m : Mode) : (s.setMode m).allowance = s.allowance := rfl
@[simp] theorem State.setMode_link (m : Mode) : (s.setMode m).link = s.link := rfl
@[simp] theorem State.setMode_peers (m : Mode) : (s.setMode m).peers = s.peers := rfl
@[simp] theorem State.setMode_stock (m : Mode) : (s.setMode m).stock = s.stock := rfl
@[simp] theorem State.setMode_journal (m : Mode) : (s.setMode m).journal = s.journal := rfl
@[simp] theorem State.setMode_metrology (m : Mode) : (s.setMode m).metrology = s.metrology := rfl
@[simp] theorem State.setMode_port (m : Mode) : (s.setMode m).port = s.port := rfl
@[simp] theorem State.setMode_rm (m : Mode) : (s.setMode m).rm = s.rm := rfl
@[simp] theorem State.setMode_free (m : Mode) : (s.setMode m).free = s.free := rfl

@[simp] theorem State.setScanner_pending (x : Scanner) : (s.setScanner x).pending = s.pending := rfl
@[simp] theorem State.setScanner_powered (x : Scanner) : (s.setScanner x).powered = s.powered := rfl
@[simp] theorem State.setScanner_mode (x : Scanner) : (s.setScanner x).mode = s.mode := rfl
@[simp] theorem State.setScanner_params (x : Scanner) : (s.setScanner x).params = s.params := rfl
@[simp] theorem State.setScanner_scanner (x : Scanner) : (s.setScanner x).scanner = x := rfl
@[simp] theorem State.setScanner_lines (x : Scanner) : (s.setScanner x).lines = s.lines := rfl
@[simp] theorem State.setScanner_points (x : Scanner) : (s.setScanner x).points = s.points := rfl
@[simp] theorem State.setScanner_meters (x : Scanner) : (s.setScanner x).meters = s.meters := rfl
@[simp] theorem State.setScanner_allowance (x : Scanner) : (s.setScanner x).allowance = s.allowance := rfl
@[simp] theorem State.setScanner_link (x : Scanner) : (s.setScanner x).link = s.link := rfl
@[simp] theorem State.setScanner_peers (x : Scanner) : (s.setScanner x).peers = s.peers := rfl
@[simp] theorem State.setScanner_stock (x : Scanner) : (s.setScanner x).stock = s.stock := rfl
@[simp] theorem State.setScanner_journal (x : Scanner) : (s.setScanner x).journal = s.journal := rfl
@[simp] theorem State.setScanner_metrology (x : Scanner) : (s.setScanner x).metrology = s.metrology := rfl
@[simp] theorem State.setScanner_port (x : Scanner) : (s.setScanner x).port = s.port := rfl
@[simp] theorem State.setScanner_rm (x : Scanner) : (s.setScanner x).rm = s.rm := rfl
@[simp] theorem State.setScanner_free (x : Scanner) : (s.setScanner x).free = s.free := rfl

@[simp] theorem State.setPoint_pending (p : PointId) (x : Point) : (s.setPoint p x).pending = s.pending := rfl
@[simp] theorem State.setPoint_powered (p : PointId) (x : Point) : (s.setPoint p x).powered = s.powered := rfl
@[simp] theorem State.setPoint_mode (p : PointId) (x : Point) : (s.setPoint p x).mode = s.mode := rfl
@[simp] theorem State.setPoint_params (p : PointId) (x : Point) : (s.setPoint p x).params = s.params := rfl
@[simp] theorem State.setPoint_scanner (p : PointId) (x : Point) : (s.setPoint p x).scanner = s.scanner := rfl
@[simp] theorem State.setPoint_lines (p : PointId) (x : Point) : (s.setPoint p x).lines = s.lines := rfl
@[simp] theorem State.setPoint_points (p : PointId) (x : Point) : (s.setPoint p x).points = s.points.set p x := rfl
@[simp] theorem State.setPoint_meters (p : PointId) (x : Point) : (s.setPoint p x).meters = s.meters := rfl
@[simp] theorem State.setPoint_allowance (p : PointId) (x : Point) : (s.setPoint p x).allowance = s.allowance := rfl
@[simp] theorem State.setPoint_link (p : PointId) (x : Point) : (s.setPoint p x).link = s.link := rfl
@[simp] theorem State.setPoint_peers (p : PointId) (x : Point) : (s.setPoint p x).peers = s.peers := rfl
@[simp] theorem State.setPoint_stock (p : PointId) (x : Point) : (s.setPoint p x).stock = s.stock := rfl
@[simp] theorem State.setPoint_journal (p : PointId) (x : Point) : (s.setPoint p x).journal = s.journal := rfl
@[simp] theorem State.setPoint_metrology (p : PointId) (x : Point) : (s.setPoint p x).metrology = s.metrology := rfl
@[simp] theorem State.setPoint_port (p : PointId) (x : Point) : (s.setPoint p x).port = s.port := rfl
@[simp] theorem State.setPoint_rm (p : PointId) (x : Point) : (s.setPoint p x).rm = s.rm := rfl
@[simp] theorem State.setPoint_free (p : PointId) (x : Point) : (s.setPoint p x).free = s.free := rfl

@[simp] theorem State.setLine_pending (p : PointId) (x : TagLine) : (s.setLine p x).pending = s.pending := rfl
@[simp] theorem State.setLine_powered (p : PointId) (x : TagLine) : (s.setLine p x).powered = s.powered := rfl
@[simp] theorem State.setLine_mode (p : PointId) (x : TagLine) : (s.setLine p x).mode = s.mode := rfl
@[simp] theorem State.setLine_params (p : PointId) (x : TagLine) : (s.setLine p x).params = s.params := rfl
@[simp] theorem State.setLine_scanner (p : PointId) (x : TagLine) : (s.setLine p x).scanner = s.scanner := rfl
@[simp] theorem State.setLine_lines (p : PointId) (x : TagLine) : (s.setLine p x).lines = s.lines.set p x := rfl
@[simp] theorem State.setLine_points (p : PointId) (x : TagLine) : (s.setLine p x).points = s.points := rfl
@[simp] theorem State.setLine_meters (p : PointId) (x : TagLine) : (s.setLine p x).meters = s.meters := rfl
@[simp] theorem State.setLine_allowance (p : PointId) (x : TagLine) : (s.setLine p x).allowance = s.allowance := rfl
@[simp] theorem State.setLine_link (p : PointId) (x : TagLine) : (s.setLine p x).link = s.link := rfl
@[simp] theorem State.setLine_peers (p : PointId) (x : TagLine) : (s.setLine p x).peers = s.peers := rfl
@[simp] theorem State.setLine_stock (p : PointId) (x : TagLine) : (s.setLine p x).stock = s.stock := rfl
@[simp] theorem State.setLine_journal (p : PointId) (x : TagLine) : (s.setLine p x).journal = s.journal := rfl
@[simp] theorem State.setLine_metrology (p : PointId) (x : TagLine) : (s.setLine p x).metrology = s.metrology := rfl
@[simp] theorem State.setLine_port (p : PointId) (x : TagLine) : (s.setLine p x).port = s.port := rfl
@[simp] theorem State.setLine_rm (p : PointId) (x : TagLine) : (s.setLine p x).rm = s.rm := rfl
@[simp] theorem State.setLine_free (p : PointId) (x : TagLine) : (s.setLine p x).free = s.free := rfl

@[simp] theorem State.setMeter_pending (p : PointId) (x : Channel) : (s.setMeter p x).pending = s.pending := rfl
@[simp] theorem State.setMeter_powered (p : PointId) (x : Channel) : (s.setMeter p x).powered = s.powered := rfl
@[simp] theorem State.setMeter_mode (p : PointId) (x : Channel) : (s.setMeter p x).mode = s.mode := rfl
@[simp] theorem State.setMeter_params (p : PointId) (x : Channel) : (s.setMeter p x).params = s.params := rfl
@[simp] theorem State.setMeter_scanner (p : PointId) (x : Channel) : (s.setMeter p x).scanner = s.scanner := rfl
@[simp] theorem State.setMeter_lines (p : PointId) (x : Channel) : (s.setMeter p x).lines = s.lines := rfl
@[simp] theorem State.setMeter_points (p : PointId) (x : Channel) : (s.setMeter p x).points = s.points := rfl
@[simp] theorem State.setMeter_meters (p : PointId) (x : Channel) : (s.setMeter p x).meters = s.meters.set p x := rfl
@[simp] theorem State.setMeter_allowance (p : PointId) (x : Channel) : (s.setMeter p x).allowance = s.allowance := rfl
@[simp] theorem State.setMeter_link (p : PointId) (x : Channel) : (s.setMeter p x).link = s.link := rfl
@[simp] theorem State.setMeter_peers (p : PointId) (x : Channel) : (s.setMeter p x).peers = s.peers := rfl
@[simp] theorem State.setMeter_stock (p : PointId) (x : Channel) : (s.setMeter p x).stock = s.stock := rfl
@[simp] theorem State.setMeter_journal (p : PointId) (x : Channel) : (s.setMeter p x).journal = s.journal := rfl
@[simp] theorem State.setMeter_metrology (p : PointId) (x : Channel) : (s.setMeter p x).metrology = s.metrology := rfl
@[simp] theorem State.setMeter_port (p : PointId) (x : Channel) : (s.setMeter p x).port = s.port := rfl
@[simp] theorem State.setMeter_rm (p : PointId) (x : Channel) : (s.setMeter p x).rm = s.rm := rfl
@[simp] theorem State.setMeter_free (p : PointId) (x : Channel) : (s.setMeter p x).free = s.free := rfl

@[simp] theorem State.setAllowance_pending (x : Allowance) : (s.setAllowance x).pending = s.pending := rfl
@[simp] theorem State.setAllowance_powered (x : Allowance) : (s.setAllowance x).powered = s.powered := rfl
@[simp] theorem State.setAllowance_mode (x : Allowance) : (s.setAllowance x).mode = s.mode := rfl
@[simp] theorem State.setAllowance_params (x : Allowance) : (s.setAllowance x).params = s.params := rfl
@[simp] theorem State.setAllowance_scanner (x : Allowance) : (s.setAllowance x).scanner = s.scanner := rfl
@[simp] theorem State.setAllowance_lines (x : Allowance) : (s.setAllowance x).lines = s.lines := rfl
@[simp] theorem State.setAllowance_points (x : Allowance) : (s.setAllowance x).points = s.points := rfl
@[simp] theorem State.setAllowance_meters (x : Allowance) : (s.setAllowance x).meters = s.meters := rfl
@[simp] theorem State.setAllowance_allowance (x : Allowance) : (s.setAllowance x).allowance = x := rfl
@[simp] theorem State.setAllowance_link (x : Allowance) : (s.setAllowance x).link = s.link := rfl
@[simp] theorem State.setAllowance_peers (x : Allowance) : (s.setAllowance x).peers = s.peers := rfl
@[simp] theorem State.setAllowance_stock (x : Allowance) : (s.setAllowance x).stock = s.stock := rfl
@[simp] theorem State.setAllowance_journal (x : Allowance) : (s.setAllowance x).journal = s.journal := rfl
@[simp] theorem State.setAllowance_metrology (x : Allowance) : (s.setAllowance x).metrology = s.metrology := rfl
@[simp] theorem State.setAllowance_port (x : Allowance) : (s.setAllowance x).port = s.port := rfl
@[simp] theorem State.setAllowance_rm (x : Allowance) : (s.setAllowance x).rm = s.rm := rfl
@[simp] theorem State.setAllowance_free (x : Allowance) : (s.setAllowance x).free = s.free := rfl

@[simp] theorem State.setLink_pending (x : Link) : (s.setLink x).pending = s.pending := rfl
@[simp] theorem State.setLink_powered (x : Link) : (s.setLink x).powered = s.powered := rfl
@[simp] theorem State.setLink_mode (x : Link) : (s.setLink x).mode = s.mode := rfl
@[simp] theorem State.setLink_params (x : Link) : (s.setLink x).params = s.params := rfl
@[simp] theorem State.setLink_scanner (x : Link) : (s.setLink x).scanner = s.scanner := rfl
@[simp] theorem State.setLink_lines (x : Link) : (s.setLink x).lines = s.lines := rfl
@[simp] theorem State.setLink_points (x : Link) : (s.setLink x).points = s.points := rfl
@[simp] theorem State.setLink_meters (x : Link) : (s.setLink x).meters = s.meters := rfl
@[simp] theorem State.setLink_allowance (x : Link) : (s.setLink x).allowance = s.allowance := rfl
@[simp] theorem State.setLink_link (x : Link) : (s.setLink x).link = x := rfl
@[simp] theorem State.setLink_peers (x : Link) : (s.setLink x).peers = s.peers := rfl
@[simp] theorem State.setLink_stock (x : Link) : (s.setLink x).stock = s.stock := rfl
@[simp] theorem State.setLink_journal (x : Link) : (s.setLink x).journal = s.journal := rfl
@[simp] theorem State.setLink_metrology (x : Link) : (s.setLink x).metrology = s.metrology := rfl
@[simp] theorem State.setLink_port (x : Link) : (s.setLink x).port = s.port := rfl
@[simp] theorem State.setLink_rm (x : Link) : (s.setLink x).rm = s.rm := rfl
@[simp] theorem State.setLink_free (x : Link) : (s.setLink x).free = s.free := rfl

@[simp] theorem State.setPeers_pending (x : PeerUnit) : (s.setPeers x).pending = s.pending := rfl
@[simp] theorem State.setPeers_powered (x : PeerUnit) : (s.setPeers x).powered = s.powered := rfl
@[simp] theorem State.setPeers_mode (x : PeerUnit) : (s.setPeers x).mode = s.mode := rfl
@[simp] theorem State.setPeers_params (x : PeerUnit) : (s.setPeers x).params = s.params := rfl
@[simp] theorem State.setPeers_scanner (x : PeerUnit) : (s.setPeers x).scanner = s.scanner := rfl
@[simp] theorem State.setPeers_lines (x : PeerUnit) : (s.setPeers x).lines = s.lines := rfl
@[simp] theorem State.setPeers_points (x : PeerUnit) : (s.setPeers x).points = s.points := rfl
@[simp] theorem State.setPeers_meters (x : PeerUnit) : (s.setPeers x).meters = s.meters := rfl
@[simp] theorem State.setPeers_allowance (x : PeerUnit) : (s.setPeers x).allowance = s.allowance := rfl
@[simp] theorem State.setPeers_link (x : PeerUnit) : (s.setPeers x).link = s.link := rfl
@[simp] theorem State.setPeers_peers (x : PeerUnit) : (s.setPeers x).peers = x := rfl
@[simp] theorem State.setPeers_stock (x : PeerUnit) : (s.setPeers x).stock = s.stock := rfl
@[simp] theorem State.setPeers_journal (x : PeerUnit) : (s.setPeers x).journal = s.journal := rfl
@[simp] theorem State.setPeers_metrology (x : PeerUnit) : (s.setPeers x).metrology = s.metrology := rfl
@[simp] theorem State.setPeers_port (x : PeerUnit) : (s.setPeers x).port = s.port := rfl
@[simp] theorem State.setPeers_rm (x : PeerUnit) : (s.setPeers x).rm = s.rm := rfl
@[simp] theorem State.setPeers_free (x : PeerUnit) : (s.setPeers x).free = s.free := rfl

@[simp] theorem State.setStock_pending (x : Stock) : (s.setStock x).pending = s.pending := rfl
@[simp] theorem State.setStock_powered (x : Stock) : (s.setStock x).powered = s.powered := rfl
@[simp] theorem State.setStock_mode (x : Stock) : (s.setStock x).mode = s.mode := rfl
@[simp] theorem State.setStock_params (x : Stock) : (s.setStock x).params = s.params := rfl
@[simp] theorem State.setStock_scanner (x : Stock) : (s.setStock x).scanner = s.scanner := rfl
@[simp] theorem State.setStock_lines (x : Stock) : (s.setStock x).lines = s.lines := rfl
@[simp] theorem State.setStock_points (x : Stock) : (s.setStock x).points = s.points := rfl
@[simp] theorem State.setStock_meters (x : Stock) : (s.setStock x).meters = s.meters := rfl
@[simp] theorem State.setStock_allowance (x : Stock) : (s.setStock x).allowance = s.allowance := rfl
@[simp] theorem State.setStock_link (x : Stock) : (s.setStock x).link = s.link := rfl
@[simp] theorem State.setStock_peers (x : Stock) : (s.setStock x).peers = s.peers := rfl
@[simp] theorem State.setStock_stock (x : Stock) : (s.setStock x).stock = x := rfl
@[simp] theorem State.setStock_journal (x : Stock) : (s.setStock x).journal = s.journal := rfl
@[simp] theorem State.setStock_metrology (x : Stock) : (s.setStock x).metrology = s.metrology := rfl
@[simp] theorem State.setStock_port (x : Stock) : (s.setStock x).port = s.port := rfl
@[simp] theorem State.setStock_rm (x : Stock) : (s.setStock x).rm = s.rm := rfl
@[simp] theorem State.setStock_free (x : Stock) : (s.setStock x).free = s.free := rfl

@[simp] theorem State.setComp_pending (c : CompId) (x : Comp) : (s.setComp c x).pending = s.pending := rfl
@[simp] theorem State.setComp_powered (c : CompId) (x : Comp) : (s.setComp c x).powered = s.powered := rfl
@[simp] theorem State.setComp_mode (c : CompId) (x : Comp) : (s.setComp c x).mode = s.mode := rfl
@[simp] theorem State.setComp_params (c : CompId) (x : Comp) : (s.setComp c x).params = s.params := rfl
@[simp] theorem State.setComp_scanner (c : CompId) (x : Comp) : (s.setComp c x).scanner = s.scanner := rfl
@[simp] theorem State.setComp_lines (c : CompId) (x : Comp) : (s.setComp c x).lines = s.lines := rfl
@[simp] theorem State.setComp_points (c : CompId) (x : Comp) : (s.setComp c x).points = s.points := rfl
@[simp] theorem State.setComp_meters (c : CompId) (x : Comp) : (s.setComp c x).meters = s.meters := rfl
@[simp] theorem State.setComp_allowance (c : CompId) (x : Comp) : (s.setComp c x).allowance = s.allowance := rfl
@[simp] theorem State.setComp_link (c : CompId) (x : Comp) : (s.setComp c x).link = s.link := rfl
@[simp] theorem State.setComp_peers (c : CompId) (x : Comp) : (s.setComp c x).peers = s.peers := rfl
@[simp] theorem State.setComp_stock (c : CompId) (x : Comp) : (s.setComp c x).stock = { s.stock with comps := s.stock.comps.set c x } := rfl
@[simp] theorem State.setComp_journal (c : CompId) (x : Comp) : (s.setComp c x).journal = s.journal := rfl
@[simp] theorem State.setComp_metrology (c : CompId) (x : Comp) : (s.setComp c x).metrology = s.metrology := rfl
@[simp] theorem State.setComp_port (c : CompId) (x : Comp) : (s.setComp c x).port = s.port := rfl
@[simp] theorem State.setComp_rm (c : CompId) (x : Comp) : (s.setComp c x).rm = s.rm := rfl
@[simp] theorem State.setComp_free (c : CompId) (x : Comp) : (s.setComp c x).free = s.free := rfl

@[simp] theorem State.setJournal_pending (x : Journal) : (s.setJournal x).pending = s.pending := rfl
@[simp] theorem State.setJournal_powered (x : Journal) : (s.setJournal x).powered = s.powered := rfl
@[simp] theorem State.setJournal_mode (x : Journal) : (s.setJournal x).mode = s.mode := rfl
@[simp] theorem State.setJournal_params (x : Journal) : (s.setJournal x).params = s.params := rfl
@[simp] theorem State.setJournal_scanner (x : Journal) : (s.setJournal x).scanner = s.scanner := rfl
@[simp] theorem State.setJournal_lines (x : Journal) : (s.setJournal x).lines = s.lines := rfl
@[simp] theorem State.setJournal_points (x : Journal) : (s.setJournal x).points = s.points := rfl
@[simp] theorem State.setJournal_meters (x : Journal) : (s.setJournal x).meters = s.meters := rfl
@[simp] theorem State.setJournal_allowance (x : Journal) : (s.setJournal x).allowance = s.allowance := rfl
@[simp] theorem State.setJournal_link (x : Journal) : (s.setJournal x).link = s.link := rfl
@[simp] theorem State.setJournal_peers (x : Journal) : (s.setJournal x).peers = s.peers := rfl
@[simp] theorem State.setJournal_stock (x : Journal) : (s.setJournal x).stock = s.stock := rfl
@[simp] theorem State.setJournal_journal (x : Journal) : (s.setJournal x).journal = x := rfl
@[simp] theorem State.setJournal_metrology (x : Journal) : (s.setJournal x).metrology = s.metrology := rfl
@[simp] theorem State.setJournal_port (x : Journal) : (s.setJournal x).port = s.port := rfl
@[simp] theorem State.setJournal_rm (x : Journal) : (s.setJournal x).rm = s.rm := rfl
@[simp] theorem State.setJournal_free (x : Journal) : (s.setJournal x).free = s.free := rfl

@[simp] theorem State.setMetrology_pending (x : Metrology) : (s.setMetrology x).pending = s.pending := rfl
@[simp] theorem State.setMetrology_powered (x : Metrology) : (s.setMetrology x).powered = s.powered := rfl
@[simp] theorem State.setMetrology_mode (x : Metrology) : (s.setMetrology x).mode = s.mode := rfl
@[simp] theorem State.setMetrology_params (x : Metrology) : (s.setMetrology x).params = s.params := rfl
@[simp] theorem State.setMetrology_scanner (x : Metrology) : (s.setMetrology x).scanner = s.scanner := rfl
@[simp] theorem State.setMetrology_lines (x : Metrology) : (s.setMetrology x).lines = s.lines := rfl
@[simp] theorem State.setMetrology_points (x : Metrology) : (s.setMetrology x).points = s.points := rfl
@[simp] theorem State.setMetrology_meters (x : Metrology) : (s.setMetrology x).meters = s.meters := rfl
@[simp] theorem State.setMetrology_allowance (x : Metrology) : (s.setMetrology x).allowance = s.allowance := rfl
@[simp] theorem State.setMetrology_link (x : Metrology) : (s.setMetrology x).link = s.link := rfl
@[simp] theorem State.setMetrology_peers (x : Metrology) : (s.setMetrology x).peers = s.peers := rfl
@[simp] theorem State.setMetrology_stock (x : Metrology) : (s.setMetrology x).stock = s.stock := rfl
@[simp] theorem State.setMetrology_journal (x : Metrology) : (s.setMetrology x).journal = s.journal := rfl
@[simp] theorem State.setMetrology_metrology (x : Metrology) : (s.setMetrology x).metrology = x := rfl
@[simp] theorem State.setMetrology_port (x : Metrology) : (s.setMetrology x).port = s.port := rfl
@[simp] theorem State.setMetrology_rm (x : Metrology) : (s.setMetrology x).rm = s.rm := rfl
@[simp] theorem State.setMetrology_free (x : Metrology) : (s.setMetrology x).free = s.free := rfl

@[simp] theorem State.setPort_pending (x : Port) : (s.setPort x).pending = s.pending := rfl
@[simp] theorem State.setPort_powered (x : Port) : (s.setPort x).powered = s.powered := rfl
@[simp] theorem State.setPort_mode (x : Port) : (s.setPort x).mode = s.mode := rfl
@[simp] theorem State.setPort_params (x : Port) : (s.setPort x).params = s.params := rfl
@[simp] theorem State.setPort_scanner (x : Port) : (s.setPort x).scanner = s.scanner := rfl
@[simp] theorem State.setPort_lines (x : Port) : (s.setPort x).lines = s.lines := rfl
@[simp] theorem State.setPort_points (x : Port) : (s.setPort x).points = s.points := rfl
@[simp] theorem State.setPort_meters (x : Port) : (s.setPort x).meters = s.meters := rfl
@[simp] theorem State.setPort_allowance (x : Port) : (s.setPort x).allowance = s.allowance := rfl
@[simp] theorem State.setPort_link (x : Port) : (s.setPort x).link = s.link := rfl
@[simp] theorem State.setPort_peers (x : Port) : (s.setPort x).peers = s.peers := rfl
@[simp] theorem State.setPort_stock (x : Port) : (s.setPort x).stock = s.stock := rfl
@[simp] theorem State.setPort_journal (x : Port) : (s.setPort x).journal = s.journal := rfl
@[simp] theorem State.setPort_metrology (x : Port) : (s.setPort x).metrology = s.metrology := rfl
@[simp] theorem State.setPort_port (x : Port) : (s.setPort x).port = x := rfl
@[simp] theorem State.setPort_rm (x : Port) : (s.setPort x).rm = s.rm := rfl
@[simp] theorem State.setPort_free (x : Port) : (s.setPort x).free = s.free := rfl

@[simp] theorem State.setRm_pending (x : RecordMemory) : (s.setRm x).pending = s.pending := rfl
@[simp] theorem State.setRm_powered (x : RecordMemory) : (s.setRm x).powered = s.powered := rfl
@[simp] theorem State.setRm_mode (x : RecordMemory) : (s.setRm x).mode = s.mode := rfl
@[simp] theorem State.setRm_params (x : RecordMemory) : (s.setRm x).params = s.params := rfl
@[simp] theorem State.setRm_scanner (x : RecordMemory) : (s.setRm x).scanner = s.scanner := rfl
@[simp] theorem State.setRm_lines (x : RecordMemory) : (s.setRm x).lines = s.lines := rfl
@[simp] theorem State.setRm_points (x : RecordMemory) : (s.setRm x).points = s.points := rfl
@[simp] theorem State.setRm_meters (x : RecordMemory) : (s.setRm x).meters = s.meters := rfl
@[simp] theorem State.setRm_allowance (x : RecordMemory) : (s.setRm x).allowance = s.allowance := rfl
@[simp] theorem State.setRm_link (x : RecordMemory) : (s.setRm x).link = s.link := rfl
@[simp] theorem State.setRm_peers (x : RecordMemory) : (s.setRm x).peers = s.peers := rfl
@[simp] theorem State.setRm_stock (x : RecordMemory) : (s.setRm x).stock = s.stock := rfl
@[simp] theorem State.setRm_journal (x : RecordMemory) : (s.setRm x).journal = s.journal := rfl
@[simp] theorem State.setRm_metrology (x : RecordMemory) : (s.setRm x).metrology = s.metrology := rfl
@[simp] theorem State.setRm_port (x : RecordMemory) : (s.setRm x).port = s.port := rfl
@[simp] theorem State.setRm_rm (x : RecordMemory) : (s.setRm x).rm = x := rfl
@[simp] theorem State.setRm_free (x : RecordMemory) : (s.setRm x).free = s.free := rfl

@[simp] theorem State.bumpFree_pending : (s.bumpFree).pending = s.pending := rfl
@[simp] theorem State.bumpFree_powered : (s.bumpFree).powered = s.powered := rfl
@[simp] theorem State.bumpFree_mode : (s.bumpFree).mode = s.mode := rfl
@[simp] theorem State.bumpFree_params : (s.bumpFree).params = s.params := rfl
@[simp] theorem State.bumpFree_scanner : (s.bumpFree).scanner = s.scanner := rfl
@[simp] theorem State.bumpFree_lines : (s.bumpFree).lines = s.lines := rfl
@[simp] theorem State.bumpFree_points : (s.bumpFree).points = s.points := rfl
@[simp] theorem State.bumpFree_meters : (s.bumpFree).meters = s.meters := rfl
@[simp] theorem State.bumpFree_allowance : (s.bumpFree).allowance = s.allowance := rfl
@[simp] theorem State.bumpFree_link : (s.bumpFree).link = s.link := rfl
@[simp] theorem State.bumpFree_peers : (s.bumpFree).peers = s.peers := rfl
@[simp] theorem State.bumpFree_stock : (s.bumpFree).stock = s.stock := rfl
@[simp] theorem State.bumpFree_journal : (s.bumpFree).journal = s.journal := rfl
@[simp] theorem State.bumpFree_metrology : (s.bumpFree).metrology = s.metrology := rfl
@[simp] theorem State.bumpFree_port : (s.bumpFree).port = s.port := rfl
@[simp] theorem State.bumpFree_rm : (s.bumpFree).rm = s.rm := rfl
@[simp] theorem State.bumpFree_free : (s.bumpFree).free = s.free + 1 := rfl

@[simp] theorem State.modAttention_pending (f : Attention → Attention) : (s.modAttention f).pending = s.pending := rfl
@[simp] theorem State.modAttention_powered (f : Attention → Attention) : (s.modAttention f).powered = s.powered := rfl
@[simp] theorem State.modAttention_mode (f : Attention → Attention) : (s.modAttention f).mode = s.mode := rfl
@[simp] theorem State.modAttention_params (f : Attention → Attention) : (s.modAttention f).params = s.params := rfl
@[simp] theorem State.modAttention_scanner (f : Attention → Attention) : (s.modAttention f).scanner = s.scanner := rfl
@[simp] theorem State.modAttention_lines (f : Attention → Attention) : (s.modAttention f).lines = s.lines := rfl
@[simp] theorem State.modAttention_points (f : Attention → Attention) : (s.modAttention f).points = s.points := rfl
@[simp] theorem State.modAttention_meters (f : Attention → Attention) : (s.modAttention f).meters = s.meters := rfl
@[simp] theorem State.modAttention_allowance (f : Attention → Attention) : (s.modAttention f).allowance = s.allowance := rfl
@[simp] theorem State.modAttention_link (f : Attention → Attention) : (s.modAttention f).link = s.link := rfl
@[simp] theorem State.modAttention_peers (f : Attention → Attention) : (s.modAttention f).peers = s.peers := rfl
@[simp] theorem State.modAttention_stock (f : Attention → Attention) : (s.modAttention f).stock = s.stock := rfl
@[simp] theorem State.modAttention_journal (f : Attention → Attention) : (s.modAttention f).journal = s.journal := rfl
@[simp] theorem State.modAttention_metrology (f : Attention → Attention) : (s.modAttention f).metrology = s.metrology := rfl
@[simp] theorem State.modAttention_port (f : Attention → Attention) : (s.modAttention f).port = { s.port with attention := f s.port.attention } := rfl
@[simp] theorem State.modAttention_rm (f : Attention → Attention) : (s.modAttention f).rm = s.rm := rfl
@[simp] theorem State.modAttention_free (f : Attention → Attention) : (s.modAttention f).free = s.free := rfl

@[simp] theorem State.modFlags_pending (f : CondFlags → CondFlags) : (s.modFlags f).pending = s.pending := rfl
@[simp] theorem State.modFlags_powered (f : CondFlags → CondFlags) : (s.modFlags f).powered = s.powered := rfl
@[simp] theorem State.modFlags_mode (f : CondFlags → CondFlags) : (s.modFlags f).mode = s.mode := rfl
@[simp] theorem State.modFlags_params (f : CondFlags → CondFlags) : (s.modFlags f).params = s.params := rfl
@[simp] theorem State.modFlags_scanner (f : CondFlags → CondFlags) : (s.modFlags f).scanner = s.scanner := rfl
@[simp] theorem State.modFlags_lines (f : CondFlags → CondFlags) : (s.modFlags f).lines = s.lines := rfl
@[simp] theorem State.modFlags_points (f : CondFlags → CondFlags) : (s.modFlags f).points = s.points := rfl
@[simp] theorem State.modFlags_meters (f : CondFlags → CondFlags) : (s.modFlags f).meters = s.meters := rfl
@[simp] theorem State.modFlags_allowance (f : CondFlags → CondFlags) : (s.modFlags f).allowance = s.allowance := rfl
@[simp] theorem State.modFlags_link (f : CondFlags → CondFlags) : (s.modFlags f).link = s.link := rfl
@[simp] theorem State.modFlags_peers (f : CondFlags → CondFlags) : (s.modFlags f).peers = s.peers := rfl
@[simp] theorem State.modFlags_stock (f : CondFlags → CondFlags) : (s.modFlags f).stock = s.stock := rfl
@[simp] theorem State.modFlags_journal (f : CondFlags → CondFlags) : (s.modFlags f).journal = s.journal := rfl
@[simp] theorem State.modFlags_metrology (f : CondFlags → CondFlags) : (s.modFlags f).metrology = s.metrology := rfl
@[simp] theorem State.modFlags_port (f : CondFlags → CondFlags) : (s.modFlags f).port = { s.port with flags := f s.port.flags } := rfl
@[simp] theorem State.modFlags_rm (f : CondFlags → CondFlags) : (s.modFlags f).rm = s.rm := rfl
@[simp] theorem State.modFlags_free (f : CondFlags → CondFlags) : (s.modFlags f).free = s.free := rfl

@[simp] theorem State.modCounters_pending (f : LinkCounters → LinkCounters) : (s.modCounters f).pending = s.pending := rfl
@[simp] theorem State.modCounters_powered (f : LinkCounters → LinkCounters) : (s.modCounters f).powered = s.powered := rfl
@[simp] theorem State.modCounters_mode (f : LinkCounters → LinkCounters) : (s.modCounters f).mode = s.mode := rfl
@[simp] theorem State.modCounters_params (f : LinkCounters → LinkCounters) : (s.modCounters f).params = s.params := rfl
@[simp] theorem State.modCounters_scanner (f : LinkCounters → LinkCounters) : (s.modCounters f).scanner = s.scanner := rfl
@[simp] theorem State.modCounters_lines (f : LinkCounters → LinkCounters) : (s.modCounters f).lines = s.lines := rfl
@[simp] theorem State.modCounters_points (f : LinkCounters → LinkCounters) : (s.modCounters f).points = s.points := rfl
@[simp] theorem State.modCounters_meters (f : LinkCounters → LinkCounters) : (s.modCounters f).meters = s.meters := rfl
@[simp] theorem State.modCounters_allowance (f : LinkCounters → LinkCounters) : (s.modCounters f).allowance = s.allowance := rfl
@[simp] theorem State.modCounters_link (f : LinkCounters → LinkCounters) : (s.modCounters f).link = { s.link with counters := f s.link.counters } := rfl
@[simp] theorem State.modCounters_peers (f : LinkCounters → LinkCounters) : (s.modCounters f).peers = s.peers := rfl
@[simp] theorem State.modCounters_stock (f : LinkCounters → LinkCounters) : (s.modCounters f).stock = s.stock := rfl
@[simp] theorem State.modCounters_journal (f : LinkCounters → LinkCounters) : (s.modCounters f).journal = s.journal := rfl
@[simp] theorem State.modCounters_metrology (f : LinkCounters → LinkCounters) : (s.modCounters f).metrology = s.metrology := rfl
@[simp] theorem State.modCounters_port (f : LinkCounters → LinkCounters) : (s.modCounters f).port = s.port := rfl
@[simp] theorem State.modCounters_rm (f : LinkCounters → LinkCounters) : (s.modCounters f).rm = s.rm := rfl
@[simp] theorem State.modCounters_free (f : LinkCounters → LinkCounters) : (s.modCounters f).free = s.free := rfl

/-! ### Accessors -/

@[simp] theorem State.setPoint_point_same (p : PointId) (x : Point) : (s.setPoint p x).point p = x := by
  simp [State.point]

theorem State.setPoint_point_other (p q : PointId) (x : Point) (h : p ≠ q) :
    (s.setPoint p x).point q = s.point q := by
  have : p.val ≠ q.val := fun e => h (Fin.ext e)
  simp [State.point, this]

@[simp] theorem State.setLine_line_same (p : PointId) (x : TagLine) : (s.setLine p x).line p = x := by
  simp [State.line]

theorem State.setLine_line_other (p q : PointId) (x : TagLine) (h : p ≠ q) :
    (s.setLine p x).line q = s.line q := by
  have : p.val ≠ q.val := fun e => h (Fin.ext e)
  simp [State.line, this]

@[simp] theorem State.setMeter_meter_same (p : PointId) (x : Channel) :
    (s.setMeter p x).meter p = x := by
  simp [State.meter]

theorem State.setMeter_meter_other (p q : PointId) (x : Channel) (h : p ≠ q) :
    (s.setMeter p x).meter q = s.meter q := by
  have : p.val ≠ q.val := fun e => h (Fin.ext e)
  simp [State.meter, this]

@[simp] theorem State.setComp_comp_same (c : CompId) (x : Comp) : (s.setComp c x).comp c = x := by
  simp [State.comp]

theorem State.setComp_comp_other (c k : CompId) (x : Comp) (h : c ≠ k) :
    (s.setComp c x).comp k = s.comp k := by
  have : c.val ≠ k.val := fun e => h (Fin.ext e)
  simp [State.comp, this]

@[simp] theorem State.setMode_point (m : Mode) (p : PointId) :
    (s.setMode m).point p = s.point p := rfl
@[simp] theorem State.setScanner_point (x : Scanner) (p : PointId) :
    (s.setScanner x).point p = s.point p := rfl
@[simp] theorem State.setLine_point (q : PointId) (x : TagLine) (p : PointId) :
    (s.setLine q x).point p = s.point p := rfl
@[simp] theorem State.setMeter_point (q : PointId) (x : Channel) (p : PointId) :
    (s.setMeter q x).point p = s.point p := rfl
@[simp] theorem State.setAllowance_point (x : Allowance) (p : PointId) :
    (s.setAllowance x).point p = s.point p := rfl
@[simp] theorem State.setLink_point (x : Link) (p : PointId) :
    (s.setLink x).point p = s.point p := rfl
@[simp] theorem State.setPeers_point (x : PeerUnit) (p : PointId) :
    (s.setPeers x).point p = s.point p := rfl
@[simp] theorem State.setStock_point (x : Stock) (p : PointId) :
    (s.setStock x).point p = s.point p := rfl
@[simp] theorem State.setComp_point (k : CompId) (x : Comp) (p : PointId) :
    (s.setComp k x).point p = s.point p := rfl
@[simp] theorem State.setJournal_point (x : Journal) (p : PointId) :
    (s.setJournal x).point p = s.point p := rfl
@[simp] theorem State.setMetrology_point (x : Metrology) (p : PointId) :
    (s.setMetrology x).point p = s.point p := rfl
@[simp] theorem State.setPort_point (x : Port) (p : PointId) :
    (s.setPort x).point p = s.point p := rfl
@[simp] theorem State.setRm_point (x : RecordMemory) (p : PointId) :
    (s.setRm x).point p = s.point p := rfl
@[simp] theorem State.bumpFree_point (p : PointId) :
    (s.bumpFree).point p = s.point p := rfl
@[simp] theorem State.modAttention_point (f : Attention → Attention) (p : PointId) :
    (s.modAttention f).point p = s.point p := rfl
@[simp] theorem State.modFlags_point (f : CondFlags → CondFlags) (p : PointId) :
    (s.modFlags f).point p = s.point p := rfl
@[simp] theorem State.modCounters_point (f : LinkCounters → LinkCounters) (p : PointId) :
    (s.modCounters f).point p = s.point p := rfl

@[simp] theorem State.setMode_line (m : Mode) (p : PointId) :
    (s.setMode m).line p = s.line p := rfl
@[simp] theorem State.setScanner_line (x : Scanner) (p : PointId) :
    (s.setScanner x).line p = s.line p := rfl
@[simp] theorem State.setPoint_line (q : PointId) (x : Point) (p : PointId) :
    (s.setPoint q x).line p = s.line p := rfl
@[simp] theorem State.setMeter_line (q : PointId) (x : Channel) (p : PointId) :
    (s.setMeter q x).line p = s.line p := rfl
@[simp] theorem State.setAllowance_line (x : Allowance) (p : PointId) :
    (s.setAllowance x).line p = s.line p := rfl
@[simp] theorem State.setLink_line (x : Link) (p : PointId) :
    (s.setLink x).line p = s.line p := rfl
@[simp] theorem State.setPeers_line (x : PeerUnit) (p : PointId) :
    (s.setPeers x).line p = s.line p := rfl
@[simp] theorem State.setStock_line (x : Stock) (p : PointId) :
    (s.setStock x).line p = s.line p := rfl
@[simp] theorem State.setComp_line (k : CompId) (x : Comp) (p : PointId) :
    (s.setComp k x).line p = s.line p := rfl
@[simp] theorem State.setJournal_line (x : Journal) (p : PointId) :
    (s.setJournal x).line p = s.line p := rfl
@[simp] theorem State.setMetrology_line (x : Metrology) (p : PointId) :
    (s.setMetrology x).line p = s.line p := rfl
@[simp] theorem State.setPort_line (x : Port) (p : PointId) :
    (s.setPort x).line p = s.line p := rfl
@[simp] theorem State.setRm_line (x : RecordMemory) (p : PointId) :
    (s.setRm x).line p = s.line p := rfl
@[simp] theorem State.bumpFree_line (p : PointId) :
    (s.bumpFree).line p = s.line p := rfl
@[simp] theorem State.modAttention_line (f : Attention → Attention) (p : PointId) :
    (s.modAttention f).line p = s.line p := rfl
@[simp] theorem State.modFlags_line (f : CondFlags → CondFlags) (p : PointId) :
    (s.modFlags f).line p = s.line p := rfl
@[simp] theorem State.modCounters_line (f : LinkCounters → LinkCounters) (p : PointId) :
    (s.modCounters f).line p = s.line p := rfl

@[simp] theorem State.setMode_meter (m : Mode) (p : PointId) :
    (s.setMode m).meter p = s.meter p := rfl
@[simp] theorem State.setScanner_meter (x : Scanner) (p : PointId) :
    (s.setScanner x).meter p = s.meter p := rfl
@[simp] theorem State.setPoint_meter (q : PointId) (x : Point) (p : PointId) :
    (s.setPoint q x).meter p = s.meter p := rfl
@[simp] theorem State.setLine_meter (q : PointId) (x : TagLine) (p : PointId) :
    (s.setLine q x).meter p = s.meter p := rfl
@[simp] theorem State.setAllowance_meter (x : Allowance) (p : PointId) :
    (s.setAllowance x).meter p = s.meter p := rfl
@[simp] theorem State.setLink_meter (x : Link) (p : PointId) :
    (s.setLink x).meter p = s.meter p := rfl
@[simp] theorem State.setPeers_meter (x : PeerUnit) (p : PointId) :
    (s.setPeers x).meter p = s.meter p := rfl
@[simp] theorem State.setStock_meter (x : Stock) (p : PointId) :
    (s.setStock x).meter p = s.meter p := rfl
@[simp] theorem State.setComp_meter (k : CompId) (x : Comp) (p : PointId) :
    (s.setComp k x).meter p = s.meter p := rfl
@[simp] theorem State.setJournal_meter (x : Journal) (p : PointId) :
    (s.setJournal x).meter p = s.meter p := rfl
@[simp] theorem State.setMetrology_meter (x : Metrology) (p : PointId) :
    (s.setMetrology x).meter p = s.meter p := rfl
@[simp] theorem State.setPort_meter (x : Port) (p : PointId) :
    (s.setPort x).meter p = s.meter p := rfl
@[simp] theorem State.setRm_meter (x : RecordMemory) (p : PointId) :
    (s.setRm x).meter p = s.meter p := rfl
@[simp] theorem State.bumpFree_meter (p : PointId) :
    (s.bumpFree).meter p = s.meter p := rfl
@[simp] theorem State.modAttention_meter (f : Attention → Attention) (p : PointId) :
    (s.modAttention f).meter p = s.meter p := rfl
@[simp] theorem State.modFlags_meter (f : CondFlags → CondFlags) (p : PointId) :
    (s.modFlags f).meter p = s.meter p := rfl
@[simp] theorem State.modCounters_meter (f : LinkCounters → LinkCounters) (p : PointId) :
    (s.modCounters f).meter p = s.meter p := rfl

@[simp] theorem State.setMode_comp (m : Mode) (c : CompId) :
    (s.setMode m).comp c = s.comp c := rfl
@[simp] theorem State.setScanner_comp (x : Scanner) (c : CompId) :
    (s.setScanner x).comp c = s.comp c := rfl
@[simp] theorem State.setPoint_comp (q : PointId) (x : Point) (c : CompId) :
    (s.setPoint q x).comp c = s.comp c := rfl
@[simp] theorem State.setLine_comp (q : PointId) (x : TagLine) (c : CompId) :
    (s.setLine q x).comp c = s.comp c := rfl
@[simp] theorem State.setMeter_comp (q : PointId) (x : Channel) (c : CompId) :
    (s.setMeter q x).comp c = s.comp c := rfl
@[simp] theorem State.setAllowance_comp (x : Allowance) (c : CompId) :
    (s.setAllowance x).comp c = s.comp c := rfl
@[simp] theorem State.setLink_comp (x : Link) (c : CompId) :
    (s.setLink x).comp c = s.comp c := rfl
@[simp] theorem State.setPeers_comp (x : PeerUnit) (c : CompId) :
    (s.setPeers x).comp c = s.comp c := rfl
@[simp] theorem State.setJournal_comp (x : Journal) (c : CompId) :
    (s.setJournal x).comp c = s.comp c := rfl
@[simp] theorem State.setMetrology_comp (x : Metrology) (c : CompId) :
    (s.setMetrology x).comp c = s.comp c := rfl
@[simp] theorem State.setPort_comp (x : Port) (c : CompId) :
    (s.setPort x).comp c = s.comp c := rfl
@[simp] theorem State.setRm_comp (x : RecordMemory) (c : CompId) :
    (s.setRm x).comp c = s.comp c := rfl
@[simp] theorem State.bumpFree_comp (c : CompId) :
    (s.bumpFree).comp c = s.comp c := rfl
@[simp] theorem State.modAttention_comp (f : Attention → Attention) (c : CompId) :
    (s.modAttention f).comp c = s.comp c := rfl
@[simp] theorem State.modFlags_comp (f : CondFlags → CondFlags) (c : CompId) :
    (s.modFlags f).comp c = s.comp c := rfl
@[simp] theorem State.modCounters_comp (f : LinkCounters → LinkCounters) (c : CompId) :
    (s.modCounters f).comp c = s.comp c := rfl

end Sys2Proof.Machine
end

