-- ==== Sys2Proof/Laws/Frames.lean ====
section
/-! SUPPORT. What each shared operation leaves alone, said once for each, and how such frames are
composed. Each lemma holds for any list of parts that contains those the operation may change. -/

set_option Elab.async false

namespace Sys2Proof.Machine

/-! ### Composing frames -/

theorem Part.same_refl (s : State) (x : Part) : x.same s s := by cases x <;> simp [Part.same]

theorem Part.same_trans {s t u : State} {x : Part} (h : x.same s t) (k : x.same t u) : x.same s u := by
  cases x <;> simp_all [Part.same]

/-- Nothing done changes nothing. -/
theorem onlyChanges_refl (l : List Part) (s : State) : onlyChanges l s s :=
  ⟨rfl, fun x _ => x.same_refl s⟩

/-- A frame may list more parts. -/
theorem onlyChanges.mono {l m : List Part} {s t : State} (h : onlyChanges l s t)
    (sub : ∀ x ∈ l, x ∈ m) : onlyChanges m s t :=
  ⟨h.1, fun x hx => h.2 x fun hl => hx (sub x hl)⟩

/-- Two operations within one frame stay within it. -/
theorem onlyChanges.trans {l : List Part} {s t u : State} (h : onlyChanges l s t)
    (k : onlyChanges l t u) : onlyChanges l s u :=
  ⟨k.1.trans h.1, fun x hx => Part.same_trans (h.2 x hx) (k.2 x hx)⟩

/-- An operation that answers one of two states of a frame. -/
theorem onlyChanges.ite {l : List Part} {s t u : State} {c : Prop} [Decidable c]
    (h : onlyChanges l s t) (k : onlyChanges l s u) : onlyChanges l s (if c then t else u) := by
  split
  · exact h
  · exact k

/-- A fold of operations within one frame. -/
theorem onlyChanges_foldl {α : Type} {l : List Part} (f : State → α → State) :
    ∀ (xs : List α) (s : State), (∀ s, ∀ a ∈ xs, onlyChanges l s (f s a)) →
      onlyChanges l s (xs.foldl f s)
  | [], s, _ => onlyChanges_refl l s
  | x :: xs, s, h =>
    (h s x (by simp)).trans (onlyChanges_foldl f xs (f s x) fun s a ha => h s a (by simp [ha]))

@[simp] theorem mem_allPoints (p : PointId) : p ∈ allPoints := by
  revert p; decide

@[simp] theorem mem_allComps (c : CompId) : c ∈ allComps := by
  revert c; decide

@[simp] theorem point_mem_everyPoint (p : PointId) : Part.point p ∈ everyPoint := by simp [everyPoint]
@[simp] theorem line_mem_everyLine (p : PointId) : Part.line p ∈ everyLine := by simp [everyLine]
@[simp] theorem meter_mem_everyMeter (p : PointId) : Part.meter p ∈ everyMeter := by simp [everyMeter]
@[simp] theorem comp_mem_everyComp (c : CompId) : Part.comp c ∈ everyComp := by simp [everyComp]

/-! ### The updates of Ops -/

theorem setMode_frame {l : List Part} (m : Mode) (s : State)
    (h1 : Part.mode ∈ l := by first | assumption | simp) : onlyChanges l s (s.setMode m) :=
  ⟨rfl, fun y hy => by cases y <;> simp_all [Part.same]⟩

theorem setScanner_frame {l : List Part} (x : Scanner) (s : State)
    (h1 : Part.scanner ∈ l := by first | assumption | simp) : onlyChanges l s (s.setScanner x) :=
  ⟨rfl, fun y hy => by cases y <;> simp_all [Part.same]⟩

theorem setPoint_frame {l : List Part} (p : PointId) (x : Point) (s : State)
    (h1 : Part.point p ∈ l := by first | assumption | simp) : onlyChanges l s (s.setPoint p x) :=
  ⟨rfl, fun y hy => by
    cases y <;> simp_all [Part.same]
    rename_i q
    have h : p ≠ q := fun e => hy (e ▸ h1)
    simp [State.setPoint_point_other _ _ _ _ h]⟩

theorem setLine_frame {l : List Part} (p : PointId) (x : TagLine) (s : State)
    (h1 : Part.line p ∈ l := by first | assumption | simp) : onlyChanges l s (s.setLine p x) :=
  ⟨rfl, fun y hy => by
    cases y <;> simp_all [Part.same]
    rename_i q
    have h : p ≠ q := fun e => hy (e ▸ h1)
    simp [State.setLine_line_other _ _ _ _ h]⟩

theorem setMeter_frame {l : List Part} (p : PointId) (x : Channel) (s : State)
    (h1 : Part.meter p ∈ l := by first | assumption | simp) : onlyChanges l s (s.setMeter p x) :=
  ⟨rfl, fun y hy => by
    cases y <;> simp_all [Part.same]
    rename_i q
    have h : p ≠ q := fun e => hy (e ▸ h1)
    simp [State.setMeter_meter_other _ _ _ _ h]⟩

theorem setComp_frame {l : List Part} (c : CompId) (x : Comp) (s : State)
    (h1 : Part.comp c ∈ l := by first | assumption | simp) : onlyChanges l s (s.setComp c x) :=
  ⟨rfl, fun y hy => by
    cases y <;> simp_all [Part.same]
    rename_i q
    have h : c ≠ q := fun e => hy (e ▸ h1)
    simp [State.setComp_comp_other _ _ _ _ h]⟩

theorem setAllowance_frame {l : List Part} (x : Allowance) (s : State)
    (h1 : Part.allowance ∈ l := by first | assumption | simp) : onlyChanges l s (s.setAllowance x) :=
  ⟨rfl, fun y hy => by cases y <;> simp_all [Part.same]⟩

theorem setLink_frame {l : List Part} (x : Link) (s : State)
    (h1 : Part.link ∈ l := by first | assumption | simp) : onlyChanges l s (s.setLink x) :=
  ⟨rfl, fun y hy => by cases y <;> simp_all [Part.same]⟩

theorem setPeers_frame {l : List Part} (x : PeerUnit) (s : State)
    (h1 : Part.peers ∈ l := by first | assumption | simp) : onlyChanges l s (s.setPeers x) :=
  ⟨rfl, fun y hy => by cases y <;> simp_all [Part.same]⟩

theorem setMetrology_frame {l : List Part} (x : Metrology) (s : State)
    (h1 : Part.metrology ∈ l := by first | assumption | simp) : onlyChanges l s (s.setMetrology x) :=
  ⟨rfl, fun y hy => by cases y <;> simp_all [Part.same]⟩

theorem setRm_frame {l : List Part} (x : RecordMemory) (s : State)
    (h1 : Part.rm ∈ l := by first | assumption | simp) : onlyChanges l s (s.setRm x) :=
  ⟨rfl, fun y hy => by cases y <;> simp_all [Part.same]⟩

theorem bumpFree_frame {l : List Part} (s : State)
    (h1 : Part.free ∈ l := by first | assumption | simp) : onlyChanges l s (s.bumpFree ) :=
  ⟨rfl, fun y hy => by cases y <;> simp_all [Part.same]⟩

theorem modAttention_frame {l : List Part} (f : Attention → Attention) (s : State)
    (h1 : Part.attention ∈ l := by first | assumption | simp) : onlyChanges l s (s.modAttention f) :=
  ⟨rfl, fun y hy => by cases y <;> simp_all [Part.same]⟩

theorem modFlags_frame {l : List Part} (f : CondFlags → CondFlags) (s : State)
    (h1 : Part.flags ∈ l := by first | assumption | simp) : onlyChanges l s (s.modFlags f) :=
  ⟨rfl, fun y hy => by cases y <;> simp_all [Part.same]⟩

theorem modCounters_frame {l : List Part} (f : LinkCounters → LinkCounters) (s : State)
    (h1 : Part.link ∈ l := by first | assumption | simp) : onlyChanges l s (s.modCounters f) :=
  ⟨rfl, fun y hy => by cases y <;> simp_all [Part.same]⟩

theorem setPeer_frame {l : List Part} (n : Nat) (x : Peer) (s : State)
    (h1 : Part.peers ∈ l := by first | assumption | simp) : onlyChanges l s (s.setPeer n x) := by
  unfold State.setPeer
  split
  · exact setPeers_frame _ _
  · exact onlyChanges_refl _ _

theorem markFault_frame {l : List Part} (p : PointId) (f : FaultMarks → FaultMarks) (s : State)
    (h1 : Part.faults ∈ l := by first | assumption | simp) : onlyChanges l s (markFault p f s) :=
  ⟨rfl, fun y hy => by cases y <;> simp_all [Part.same, markFault]⟩

/-! ### Outputs, responses, attention -/

/-- Driving the outputs changes no part. -/
theorem drive_frame (l : List Part) (s : State) : onlyChanges l s (drive s) :=
  ⟨rfl, fun y _ => by
    cases y with
    | point p =>
      show ({ (drive s).point p with valve := .closed } : Point) = _
      match p with
      | 0 => rfl
      | 1 => rfl
      | 2 => rfl
      | 3 => rfl
    | _ => simp [Part.same, drive, State.line, State.meter, State.comp]⟩

theorem respond_frame {l : List Part} (code : Byte) (a : Answer) (s : State)
    (h1 : Part.exchange ∈ l := by first | assumption | simp) : onlyChanges l s (respond code a s) :=
  ⟨rfl, fun y hy => by cases y <;> simp_all [Part.same, respond]⟩

theorem raisePoint_frame {l : List Part} (p : PointId) (d : PointDetail) (s : State)
    (h1 : Part.attention ∈ l := by first | assumption | simp) : onlyChanges l s (raisePoint p d s) :=
  modAttention_frame _ s

theorem raiseHalt_frame {l : List Part} (c : Codes) (s : State)
    (h1 : Part.attention ∈ l := by first | assumption | simp) : onlyChanges l s (raiseHalt c s) :=
  modAttention_frame _ s

theorem raiseEstop_frame {l : List Part} (s : State)
    (h1 : Part.attention ∈ l := by first | assumption | simp) : onlyChanges l s (raiseEstop s) :=
  modAttention_frame _ s

theorem raiseJournal_frame {l : List Part} (f : JournalCause → JournalCause) (s : State)
    (h1 : Part.attention ∈ l := by first | assumption | simp) : onlyChanges l s (raiseJournal f s) :=
  modAttention_frame _ s

theorem raiseStock_frame {l : List Part} (f : StockCause → StockCause) (s : State)
    (h1 : Part.attention ∈ l := by first | assumption | simp) : onlyChanges l s (raiseStock f s) :=
  modAttention_frame _ s

theorem raiseLink_frame {l : List Part} (f : LinkCause → LinkCause) (s : State)
    (h1 : Part.attention ∈ l := by first | assumption | simp) : onlyChanges l s (raiseLink f s) :=
  modAttention_frame _ s

theorem setViewFullFlag_frame {l : List Part} (s : State)
    (h1 : Part.flags ∈ l := by first | assumption | simp) : onlyChanges l s (setViewFullFlag s) :=
  modFlags_frame _ s

/-! ### Points -/

theorem powerLine_frame {l : List Part} (p : PointId) (s : State)
    (h1 : Part.line p ∈ l := by first | assumption | simp) : onlyChanges l s (powerLine p s) := by
  dsimp only [powerLine]
  exact (onlyChanges_refl _ _).ite (setLine_frame _ _ _)

theorem powerLines_frame {l : List Part} (s : State)
    (h1 : ∀ p, Part.line p ∈ l := by first | assumption | simp) : onlyChanges l s (powerLines s) :=
  onlyChanges_foldl _ _ _ fun s p _ => powerLine_frame p s (h1 p)

theorem putPoint_frame {l : List Part} (p : PointId) (x : Point) (s : State)
    (h1 : Part.point p ∈ l := by first | assumption | simp) (h2 : Part.line p ∈ l := by first | assumption | simp) :
    onlyChanges l s (putPoint p x s) :=
  (setPoint_frame p x s).trans (powerLine_frame p _)

theorem discardRuns_frame {l : List Part} (s : State) (h1 : Part.scanner ∈ l := by first | assumption | simp) :
    onlyChanges l s (discardRuns s) :=
  setScanner_frame _ s

theorem takePark_frame {l : List Part} (s : State) (h1 : Part.mode ∈ l := by first | assumption | simp)
    (h2 : Part.park ∈ l := by first | assumption | simp) (h3 : Part.scanner ∈ l := by first | assumption | simp) :
    onlyChanges l s (takePark s) := by
  refine onlyChanges.trans ?_ (discardRuns_frame _)
  exact ⟨rfl, fun y hy => by cases y <;> simp_all [Part.same]⟩

theorem powerLine_scanner (p : PointId) (s : State) : (powerLine p s).scanner = s.scanner := by
  dsimp only [powerLine]; split <;> rfl

theorem putPoint_scanner (p : PointId) (x : Point) (s : State) :
    (putPoint p x s).scanner = s.scanner := powerLine_scanner p _

theorem powerLine_port (p : PointId) (s : State) : (powerLine p s).port = s.port := by
  dsimp only [powerLine]; split <;> rfl

theorem putPoint_port (p : PointId) (x : Point) (s : State) : (putPoint p x s).port = s.port :=
  powerLine_port p _

/-- A point that enters IDLE while no park is pending changes itself and its tag line. -/
theorem enterIdle_frame {l : List Part} (p : PointId) (s : State) (hp : s.port.parkPending = false)
    (h1 : Part.point p ∈ l := by first | assumption | simp) (h2 : Part.line p ∈ l := by first | assumption | simp) :
    onlyChanges l s (enterIdle p s) := by
  simp only [enterIdle, checkPark, putPoint_port, hp, Bool.false_and, Bool.false_eq_true, if_false]
  exact putPoint_frame p _ s

/-- A point whose switch does not show it at rest stays where it is. -/
theorem settleAtRest_waits (p : PointId) (s : State) (h : s.waits p) : settleAtRest p s = s := by
  have : s.atRest p = false := by simpa [State.atRest, State.waits] using h
  simp [settleAtRest, this]

/-- A point that is refused stays there, or no park is pending to take effect as it enters IDLE. -/
def State.staysOrNoPark (s : State) (p : PointId) : Prop := s.port.parkPending = false ∨ s.waits p

theorem staysOrNoPark_of_frame {l : List Part} {s t : State} {p : PointId} (h : onlyChanges l s t)
    (hs : s.staysOrNoPark p) (h1 : Part.park ∉ l) (h2 : Part.scanner ∉ l) : t.staysOrNoPark p := by
  have a := (h.2 _ h1).2.2
  have b : t.scanner = s.scanner := h.2 _ h2
  unfold State.staysOrNoPark State.waits State.switchAt at *
  rw [a, b]; exact hs

/-- A refusal changes its point, the tag line and the attention causes. -/
theorem enterRefused_frame {l : List Part} (p : PointId) (r : RefusalReason) (c : FillContext)
    (s : State) (hp : s.staysOrNoPark p) (h1 : Part.point p ∈ l := by first | assumption | simp)
    (h2 : Part.line p ∈ l := by first | assumption | simp) (h3 : Part.attention ∈ l := by first | assumption | simp) :
    onlyChanges l s (enterRefused p r c s) := by
  have h : ∀ m : List Part, Part.point p ∈ m → Part.line p ∈ m → Part.attention ∈ m →
      onlyChanges m s (raisePoint p (.refused r) (putPoint p
      { s.point p with state := .refused, timers := .stopped, ctx := { c with refusal := some r } } s)) :=
    fun m _ _ _ => (putPoint_frame p _ s).trans (raisePoint_frame p _ _)
  have k := staysOrNoPark_of_frame (h [.point p, .line p, .attention] (by simp) (by simp) (by simp)) hp
    (by simp) (by simp)
  unfold enterRefused
  rcases k with k | k
  · exact onlyChanges.ite ((h l h1 h2 h3).trans (enterIdle_frame p _ k)) (h l h1 h2 h3)
  · rw [settleAtRest_waits p _ k]
    exact h l h1 h2 h3

theorem refuseEvent_frame {l : List Part} (p : PointId) (r : RefusalReason) (s : State)
    (hp : s.staysOrNoPark p) (h1 : Part.point p ∈ l := by first | assumption | simp)
    (h2 : Part.line p ∈ l := by first | assumption | simp) (h3 : Part.attention ∈ l := by first | assumption | simp) :
    onlyChanges l s (refuseEvent p r s) := by
  unfold refuseEvent
  split
  · exact enterRefused_frame p r _ s hp
  · exact enterRefused_frame p r _ s hp
  · exact onlyChanges_refl _ _

theorem enterClosing_frame {l : List Part} (p : PointId) (e : EndCause) (s : State)
    (h1 : Part.point p ∈ l := by first | assumption | simp) (h2 : Part.line p ∈ l := by first | assumption | simp) :
    onlyChanges l s (enterClosing p e s) :=
  putPoint_frame p _ s

theorem endCause_frame {l : List Part} (p : PointId) (e : EndCause) (s : State)
    (h1 : Part.point p ∈ l := by first | assumption | simp) (h2 : Part.line p ∈ l := by first | assumption | simp) :
    onlyChanges l s (endCause p e s) :=
  onlyChanges.ite (enterClosing_frame p e s) (onlyChanges_refl _ _)

theorem meterFault_frame {l : List Part} (p : PointId) (s : State)
    (h1 : Part.point p ∈ l := by first | assumption | simp) (h2 : Part.line p ∈ l := by first | assumption | simp)
    (h3 : Part.faults ∈ l := by first | assumption | simp) : onlyChanges l s (meterFault p s) := by
  dsimp only [meterFault]
  refine onlyChanges.ite ?_ (onlyChanges_refl _ _)
  exact ((endCause_frame p _ s).trans (setPoint_frame p _ _)).trans (markFault_frame p _ _)

theorem leavePriming_frame {l : List Part} (p : PointId) (s : State)
    (h1 : Part.point p ∈ l := by first | assumption | simp) : onlyChanges l s (leavePriming p s) :=
  onlyChanges.ite (setPoint_frame p _ s) (setPoint_frame p _ s)

theorem slowReached_frame {l : List Part} (p : PointId) (s : State)
    (h1 : Part.point p ∈ l := by first | assumption | simp) : onlyChanges l s (slowReached p s) :=
  onlyChanges.ite (setPoint_frame p _ s) (onlyChanges_refl _ _)

theorem stopReached_frame {l : List Part} (p : PointId) (s : State)
    (h1 : Part.point p ∈ l := by first | assumption | simp) (h2 : Part.line p ∈ l := by first | assumption | simp) :
    onlyChanges l s (stopReached p s) :=
  endCause_frame p _ s

theorem primeElapsed_frame {l : List Part} (p : PointId) (s : State)
    (h1 : Part.point p ∈ l := by first | assumption | simp) : onlyChanges l s (primeElapsed p s) := by
  dsimp only [primeElapsed]
  refine onlyChanges.ite ?_ (onlyChanges_refl _ _)
  exact onlyChanges.ite ((setPoint_frame p _ s).trans (leavePriming_frame p _)) (setPoint_frame p _ s)

theorem forwardCount_frame {l : List Part} (p : PointId) (s : State)
    (h1 : Part.point p ∈ l := by first | assumption | simp) (h2 : Part.line p ∈ l := by first | assumption | simp) :
    onlyChanges l s (forwardCount p s) := by
  dsimp only [forwardCount]
  have a : onlyChanges l s (if (s.point p).state = .priming then
      s.setPoint p { s.point p with counted := true } else s) :=
    onlyChanges.ite (setPoint_frame p _ s) (onlyChanges_refl _ _)
  have b : ∀ t u, onlyChanges l t u →
      onlyChanges l t (if crossed ((s.meter p).live - 1) (s.meter p).live (s.meter p).slowTarget
        then slowReached p u else u) :=
    fun t u h => onlyChanges.ite (h.trans (slowReached_frame p u)) h
  have d : ∀ t u, onlyChanges l t u →
      onlyChanges l t (if crossed ((s.meter p).live - 1) (s.meter p).live (s.meter p).stopTarget
        then stopReached p u else u) :=
    fun t u h => onlyChanges.ite (h.trans (stopReached_frame p u)) h
  have e := d _ _ (b _ _ a)
  exact onlyChanges.ite (e.trans (leavePriming_frame p _)) e

/-- The sampled temperature changes its channel, the flag and the mark. -/
theorem noteTemperature_frame {l : List Part} (p : PointId) (t : TempReading) (s : State)
    (h1 : Part.meter p ∈ l := by first | assumption | simp) (h2 : Part.flags ∈ l := by first | assumption | simp)
    (h3 : Part.faults ∈ l := by first | assumption | simp) : onlyChanges l s (noteTemperature p t s) := by
  dsimp only [noteTemperature]
  cases t with
  | tenths x => exact setMeter_frame p _ s
  | absent =>
    have h := (setMeter_frame p { s.meter p with tempGood := false } s h1).trans
      (modFlags_frame (fun f => { f with tempAbsent := f.tempAbsent.set p true }) _ h2)
    exact onlyChanges.ite (h.trans (markFault_frame p _ _)) h

theorem enterPaused_frame {l : List Part} (p : PointId) (s : State)
    (h1 : Part.point p ∈ l := by first | assumption | simp) (h2 : Part.line p ∈ l := by first | assumption | simp) :
    onlyChanges l s (enterPaused p s) :=
  putPoint_frame p _ s

theorem enterPriming_frame {l : List Part} (p : PointId) (s : State)
    (h1 : Part.point p ∈ l := by first | assumption | simp) (h2 : Part.line p ∈ l := by first | assumption | simp) :
    onlyChanges l s (enterPriming p s) :=
  putPoint_frame p _ s

/-! ### The journal -/

theorem judgeJournal_frame {l : List Part} (s : State) (h1 : Part.ring ∈ l := by first | assumption | simp)
    (h2 : Part.attention ∈ l := by first | assumption | simp) (h3 : Part.flags ∈ l := by first | assumption | simp) :
    onlyChanges l s (judgeJournal s) := by
  have low : ∀ t, onlyChanges l t (judgeLow t) := fun t => by
    have a : onlyChanges l t (t.setJournal { t.journal with low := decide (t.freeSlots ≤ 64) }) :=
      ⟨rfl, fun y hy => by cases y <;> simp_all [Part.same]⟩
    exact onlyChanges.ite ((a.trans (modFlags_frame _ _)).trans (raiseJournal_frame _ _)) a
  have full : ∀ t, onlyChanges l t (judgeFull t) := fun t => by
    have a : onlyChanges l t (t.setJournal { t.journal with full := decide (t.freeSlots ≤ 4) }) :=
      ⟨rfl, fun y hy => by cases y <;> simp_all [Part.same]⟩
    exact onlyChanges.ite ((a.trans (modFlags_frame _ _)).trans (raiseJournal_frame _ _)) a
  exact (low s).trans (full _)

theorem appendRecord_frame {l : List Part} (closed : Bool) (body : RecordBody) (s : State)
    (h1 : Part.ring ∈ l := by first | assumption | simp) (h2 : Part.rm ∈ l := by first | assumption | simp) :
    onlyChanges l s (appendRecord closed body s) :=
  ⟨rfl, fun y hy => by cases y <;> simp_all [Part.same, appendRecord]⟩

theorem updateSlot_frame {l : List Part} (k : Nat) (f : Record → Record) (s : State)
    (h1 : Part.rm ∈ l := by first | assumption | simp) : onlyChanges l s (updateSlot k f s) :=
  setRm_frame _ s

theorem appendOrLose_frame {l : List Part} (body : RecordBody) (s : State)
    (h1 : Part.ring ∈ l := by first | assumption | simp) (h2 : Part.attention ∈ l := by first | assumption | simp)
    (h3 : Part.flags ∈ l := by first | assumption | simp) (h4 : Part.rm ∈ l := by first | assumption | simp) :
    onlyChanges l s (appendOrLose body s) := by
  dsimp only [appendOrLose]
  refine onlyChanges.ite ?_ ((appendRecord_frame _ _ s).trans (judgeJournal_frame _))
  refine onlyChanges.trans ?_ (raiseJournal_frame _ _)
  exact ⟨rfl, fun y hy => by cases y <;> simp_all [Part.same]⟩

theorem setCheckpoints_frame {l : List Part} (w v : Vector (Option Checkpoint) 4) (s : State)
    (h1 : Part.checkpoints ∈ l := by first | assumption | simp) :
    onlyChanges l s (s.setJournal { s.journal with writing := w, waiting := v }) :=
  ⟨rfl, fun y hy => by cases y <;> simp_all [Part.same]⟩

theorem handCheckpoint_frame {l : List Part} (p : PointId) (c : Checkpoint) (s : State)
    (h1 : Part.checkpoints ∈ l := by first | assumption | simp) : onlyChanges l s (handCheckpoint p c s) := by
  dsimp only [handCheckpoint]
  split <;> exact ⟨rfl, fun y hy => by cases y <;> simp_all [Part.same]⟩

theorem dropCheckpoints_frame {l : List Part} (p : PointId) (s : State)
    (h1 : Part.checkpoints ∈ l := by first | assumption | simp) : onlyChanges l s (dropCheckpoints p s) :=
  ⟨rfl, fun y hy => by cases y <;> simp_all [Part.same, dropCheckpoints]⟩

theorem finishCheckpoint_frame {l : List Part} (p : PointId) (s : State)
    (h1 : Part.checkpoints ∈ l := by first | assumption | simp) (h2 : Part.rm ∈ l := by first | assumption | simp) :
    onlyChanges l s (finishCheckpoint p s) := by
  dsimp only [finishCheckpoint]
  split
  · exact onlyChanges_refl _ _
  · rename_i c _
    have h : onlyChanges l s (match (s.point p).ctx.slot with
        | some k => updateSlot k (Record.mapFill (FillRecord.writeCheckpoint c)) s
        | none => s) := by
      split
      · exact updateSlot_frame _ _ _
      · exact onlyChanges_refl _ _
    exact h.trans (setCheckpoints_frame _ _ _)

/-! ### The link -/

theorem linkTask_frame {l : List Part} (t : LinkTask) (s : State) (h1 : Part.link ∈ l := by first | assumption | simp)
    (h2 : Part.peers ∈ l := by first | assumption | simp) : onlyChanges l s (linkTask t s).1 := by
  have busy : ∀ u, onlyChanges l u (busyFinding u).1 := fun u => by
    dsimp only [busyFinding]
    split
    · exact onlyChanges_refl _ _
    · split <;> exact setLink_frame _ _
  cases t with
  | begin =>
    simp only [linkTask, beginAttempt]
    split
    · split
      · exact (setLink_frame _ _).trans (busy _)
      · exact setLink_frame _ _
    · exact onlyChanges_refl _ _
  | left b =>
    simp only [linkTask, leftTask]
    split
    · split
      · split <;> exact setPeers_frame _ _
      · exact onlyChanges_refl _ _
    · exact onlyChanges_refl _ _
  | send body urgent => exact setLink_frame _ s

theorem beginRound_frame {l : List Part} (urgent : Bool) (s : State)
    (h1 : Part.peers ∈ l := by first | assumption | simp) : onlyChanges l s (beginRound urgent s) :=
  setPeers_frame _ s

/-- The link's work changes the Link Controller and the tally generator. -/
theorem runLink_frame {l : List Part} (h1 : Part.link ∈ l) (h2 : Part.peers ∈ l) :
    ∀ (n : Nat) (ts : List LinkTask) (s : State), onlyChanges l s (runLink n ts s)
  | 0, ts, s => by cases ts <;> exact onlyChanges_refl _ _
  | n + 1, [], s => by
    simp only [runLink]
    split
    · split
      · exact (beginRound_frame false s).trans (runLink_frame h1 h2 n _ _)
      · exact beginRound_frame false s
    · exact onlyChanges_refl _ _
  | n + 1, t :: ts, s => by
    simp only [runLink]
    exact (linkTask_frame t s).trans (runLink_frame h1 h2 n _ _)

theorem linkWork_frame {l : List Part} (ts : List LinkTask) (s : State)
    (h1 : Part.link ∈ l := by first | assumption | simp) (h2 : Part.peers ∈ l := by first | assumption | simp) :
    onlyChanges l s (linkWork ts s) :=
  runLink_frame h1 h2 _ ts s

theorem queueBulletin_frame {l : List Part} (body : BulletinBody) (s : State)
    (h1 : Part.link ∈ l := by first | assumption | simp) (h2 : Part.peers ∈ l := by first | assumption | simp) :
    onlyChanges l s (queueBulletin body s) :=
  linkWork_frame _ s

theorem startRound_frame {l : List Part} (urgent : Bool) (s : State)
    (h1 : Part.link ∈ l := by first | assumption | simp) (h2 : Part.peers ∈ l := by first | assumption | simp) :
    onlyChanges l s (startRound urgent s) := by
  dsimp only [startRound]
  split
  · exact (beginRound_frame urgent s).trans (linkWork_frame _ _)
  · exact beginRound_frame urgent s

/-! ### Allowances and stock -/

theorem removeHold_frame {l : List Part} (peer fleet : Nat) (s : State)
    (h1 : Part.allowance ∈ l := by first | assumption | simp) : onlyChanges l s (removeHold peer fleet s) :=
  setAllowance_frame _ s

theorem removeHoldsOf_frame {l : List Part} (peer : Nat) (s : State)
    (h1 : Part.allowance ∈ l := by first | assumption | simp) : onlyChanges l s (removeHoldsOf peer s) :=
  setAllowance_frame _ s

theorem expireHold_frame {l : List Part} (peer fleet : Nat) (s : State)
    (h1 : Part.allowance ∈ l := by first | assumption | simp) : onlyChanges l s (expireHold peer fleet s) :=
  setAllowance_frame _ s

/-- A change of the restock queue and of what goes with it. -/
theorem setStock_frame {l : List Part} (s : State) (x : Stock) (hc : x.comps = s.stock.comps)
    (ha : x.startedAt = s.stock.startedAt) (h1 : Part.restock ∈ l := by first | assumption | simp)
    (hp : x.probeLines = s.stock.probeLines := by rfl) : onlyChanges l s (s.setStock x) :=
  ⟨rfl, fun y hy => by cases y <;> simp_all [Part.same, State.comp]⟩

theorem reckonTurn_frame {l : List Part} (s : State) (h1 : Part.restock ∈ l := by first | assumption | simp)
    (h2 : Part.attention ∈ l := by first | assumption | simp) : onlyChanges l s (reckonTurn s) := by
  dsimp only [reckonTurn]
  have h : onlyChanges l s (s.setStock { s.stock with turn := s.turnNow }) := setStock_frame s _ rfl rfl
  exact onlyChanges.ite (h.trans (raiseStock_frame _ _)) h

theorem noteOwn_frame {l : List Part} (s : State) (h1 : Part.restock ∈ l := by first | assumption | simp) :
    onlyChanges l s (noteOwn s) :=
  setStock_frame s _ rfl rfl

theorem createEntry_frame {l : List Part} (e : RestockEntry) (s : State)
    (h1 : Part.restock ∈ l := by first | assumption | simp) (h2 : Part.attention ∈ l := by first | assumption | simp) :
    onlyChanges l s (createEntry e s) := by
  dsimp only [createEntry]
  split
  · refine onlyChanges.trans (onlyChanges.trans ?_ (noteOwn_frame _)) (reckonTurn_frame _)
    exact setStock_frame s _ rfl rfl
  · split
    · split
      · refine onlyChanges.trans (onlyChanges.trans ?_ (noteOwn_frame _)) (reckonTurn_frame _)
        exact setStock_frame s _ rfl rfl
      · refine onlyChanges.trans (onlyChanges.trans ?_ (noteOwn_frame _)) (reckonTurn_frame _)
        exact setStock_frame s _ rfl rfl
    · exact onlyChanges_refl _ _

theorem offerOwn_frame {l : List Part} (s : State)
    (h1 : Part.restock ∈ l := by first | assumption | simp) (h2 : Part.attention ∈ l := by first | assumption | simp) :
    onlyChanges l s (offerOwn s) :=
  createEntry_frame _ s

theorem offerOwnAgain_frame {l : List Part} (s : State)
    (h1 : Part.restock ∈ l := by first | assumption | simp) (h2 : Part.attention ∈ l := by first | assumption | simp) :
    onlyChanges l s (offerOwnAgain s) :=
  onlyChanges.ite (offerOwn_frame s) (onlyChanges_refl _ _)

theorem createPeerEntry_frame {l : List Part} (e : RestockEntry) (s : State)
    (h1 : Part.restock ∈ l := by first | assumption | simp) (h2 : Part.attention ∈ l := by first | assumption | simp) :
    onlyChanges l s (createPeerEntry e s) :=
  onlyChanges.ite ((createEntry_frame e s).trans (offerOwnAgain_frame _)) (createEntry_frame e s)

theorem removeEntry_frame {l : List Part} (station : Nat) (s : State)
    (h1 : Part.restock ∈ l := by first | assumption | simp) (h2 : Part.attention ∈ l := by first | assumption | simp) :
    onlyChanges l s (removeEntry station s) := by
  dsimp only [removeEntry]
  split
  · have h : onlyChanges l s (reckonTurn (s.setStock { s.stock with
        queue := s.stock.queue.filter (fun e => e.station != station) })) := by
      refine onlyChanges.trans ?_ (reckonTurn_frame _)
      exact setStock_frame s _ rfl rfl
    exact h.trans (offerOwnAgain_frame _)
  · exact onlyChanges_refl _ _

theorem refreshEntry_frame {l : List Part} (e : RestockEntry) (s : State)
    (h1 : Part.restock ∈ l := by first | assumption | simp) (h2 : Part.attention ∈ l := by first | assumption | simp) :
    onlyChanges l s (refreshEntry e s) := by
  refine onlyChanges.trans ?_ (reckonTurn_frame _)
  exact setStock_frame s _ rfl rfl

theorem takeFraction_frame {l : List Part} (station fraction : Nat) (s : State)
    (h1 : Part.restock ∈ l := by first | assumption | simp) (h2 : Part.attention ∈ l := by first | assumption | simp) :
    onlyChanges l s (takeFraction station fraction s) :=
  onlyChanges.ite (refreshEntry_frame _ s) (createPeerEntry_frame _ s)

theorem ageEntry_frame {l : List Part} (station : Nat) (s : State)
    (h1 : Part.restock ∈ l := by first | assumption | simp) (h2 : Part.attention ∈ l := by first | assumption | simp) :
    onlyChanges l s (ageEntry station s) :=
  onlyChanges.ite (removeEntry_frame station s) (onlyChanges_refl _ _)

/-- The evaluation of the own restock request changes the restock queue, the link and STOCK attention. -/
theorem evaluateRestock_frame {l : List Part} (receipt : Bool) (s : State)
    (h1 : Part.restock ∈ l := by first | assumption | simp) (h2 : Part.attention ∈ l := by first | assumption | simp)
    (h3 : Part.link ∈ l := by first | assumption | simp) (h4 : Part.peers ∈ l := by first | assumption | simp) :
    onlyChanges l s (evaluateRestock receipt s) := by
  have f : onlyChanges l s (s.setStock { s.stock with ownFraction := s.ownFractionNow }) :=
    setStock_frame s _ rfl rfl
  dsimp only [evaluateRestock]
  split
  · split
    · refine onlyChanges.trans (onlyChanges.trans (onlyChanges.trans f ?_) (queueBulletin_frame _ _))
        (offerOwn_frame _)
      exact setStock_frame _ _ rfl rfl
    · exact f
  · split
    · refine onlyChanges.trans (onlyChanges.trans (onlyChanges.trans f ?_) (queueBulletin_frame _ _))
        (removeEntry_frame _ _)
      exact setStock_frame _ _ rfl rfl
    · split
      · split
        · exact f.trans (refreshEntry_frame _ _)
        · exact f
      · split
        · exact f.trans (offerOwn_frame _)
        · exact f

theorem stopQuiet_frame {l : List Part} (c : CompId) (s : State) (h1 : Part.comp c ∈ l := by first | assumption | simp) :
    onlyChanges l s (stopQuiet c s) :=
  setComp_frame c _ s

theorem restartQuiet_frame {l : List Part} (c : CompId) (s : State)
    (h1 : Part.comp c ∈ l := by first | assumption | simp) : onlyChanges l s (restartQuiet c s) :=
  onlyChanges.ite (setComp_frame c _ s) (onlyChanges_refl _ _)

theorem judgeVariance_frame {l : List Part} (c : CompId) (tolerance : Nat) (s : State)
    (h1 : Part.comp c ∈ l := by first | assumption | simp) (h2 : Part.attention ∈ l := by first | assumption | simp)
    (h3 : Part.flags ∈ l := by first | assumption | simp) : onlyChanges l s (judgeVariance c tolerance s) := by
  dsimp only [judgeVariance]
  split
  · split
    · split
      · refine onlyChanges.trans ?_ (modFlags_frame _ _)
        exact setComp_frame c _ s
      · refine onlyChanges.trans (onlyChanges.trans ?_ (modFlags_frame _ _)) (raiseStock_frame _ _)
        exact setComp_frame c _ s
    · exact setComp_frame c _ s
  · exact setComp_frame c _ s

theorem varianceDue_frame {l : List Part} (c : CompId) (s : State)
    (h1 : Part.comp c ∈ l := by first | assumption | simp) (h2 : Part.attention ∈ l := by first | assumption | simp)
    (h3 : Part.flags ∈ l := by first | assumption | simp) : onlyChanges l s (varianceDue c s) := by
  dsimp only [varianceDue]
  split
  · refine onlyChanges.ite (onlyChanges.trans ?_ (restartQuiet_frame c _)) (onlyChanges_refl _ _)
    exact onlyChanges.ite (judgeVariance_frame c _ s) (onlyChanges_refl _ _)
  · exact onlyChanges_refl _ _

end Sys2Proof.Machine
end

