-- ==== Sys2Proof/Laws/Events.lean ====
section
/-! SUPPORT. What the opening and the close of a fill, a wake, an event at every point and a probe sample
leave alone. -/

set_option Elab.async false

namespace Sys2Proof.Machine

/-! ### Opening a fill -/

theorem modCtx_frame {l : List Part} (p : PointId) (f : FillContext → FillContext) (s : State)
    (h1 : Part.point p ∈ l := by first | assumption | simp) : onlyChanges l s (s.modCtx p f) :=
  setPoint_frame p _ s

theorem setSlotAside_frame {l : List Part} (s : State) (h1 : Part.ring ∈ l := by first | assumption | simp)
    (h2 : Part.attention ∈ l := by first | assumption | simp) (h3 : Part.flags ∈ l := by first | assumption | simp) :
    onlyChanges l s (setSlotAside s) := by
  refine onlyChanges.trans ?_ (judgeJournal_frame _)
  exact ⟨rfl, fun y hy => by cases y <;> simp_all [Part.same]⟩

theorem giveSlotBack_frame {l : List Part} (s : State) (h1 : Part.ring ∈ l := by first | assumption | simp)
    (h2 : Part.attention ∈ l := by first | assumption | simp) (h3 : Part.flags ∈ l := by first | assumption | simp) :
    onlyChanges l s (giveSlotBack s) := by
  refine onlyChanges.trans ?_ (judgeJournal_frame _)
  exact ⟨rfl, fun y hy => by cases y <;> simp_all [Part.same]⟩

theorem appendOpen_frame {l : List Part} (body : RecordBody) (s : State)
    (h1 : Part.ring ∈ l := by first | assumption | simp) (h2 : Part.attention ∈ l := by first | assumption | simp)
    (h3 : Part.flags ∈ l := by first | assumption | simp) (h4 : Part.rm ∈ l := by first | assumption | simp) :
    onlyChanges l s (appendOpen body s) := by
  dsimp only [appendOpen]
  refine onlyChanges.trans (onlyChanges.trans (appendRecord_frame false body s) ?_)
    (judgeJournal_frame _)
  exact ⟨rfl, fun y hy => by cases y <;> simp_all [Part.same]⟩

/-- The opening of a fill: its point, tag line and channel, its compartment's quiet timer, the record,
the link, the journal's space. -/
theorem openFill_frame {l : List Part} (p : PointId) (s : State)
    (h1 : Part.point p ∈ l := by first | assumption | simp) (h2 : Part.line p ∈ l := by first | assumption | simp)
    (h3 : Part.meter p ∈ l := by first | assumption | simp) (h4 : Part.comp (s.compartmentOf p) ∈ l := by first | assumption | simp)
    (h5 : Part.link ∈ l := by first | assumption | simp) (h6 : Part.peers ∈ l := by first | assumption | simp)
    (h7 : Part.ring ∈ l := by first | assumption | simp) (h8 : Part.rm ∈ l := by first | assumption | simp)
    (h9 : Part.checkpoints ∈ l := by first | assumption | simp) (ha : Part.attention ∈ l := by first | assumption | simp)
    (hf : Part.flags ∈ l := by first | assumption | simp) : onlyChanges l s (openFill p s) := by
  cases hr : (s.role p == .receipt) with
  | true =>
    simp only [openFill, hr, if_true]
    refine onlyChanges.trans (onlyChanges.trans (onlyChanges.trans ?_ (enterPriming_frame p _))
      (setMeter_frame p _ _)) (stopQuiet_frame _ _)
    exact onlyChanges.trans (onlyChanges.trans (appendOpen_frame _ s) (dropCheckpoints_frame p _))
      (modCtx_frame p _ _)
  | false =>
    simp only [openFill, hr, Bool.false_eq_true, if_false]
    refine onlyChanges.trans (onlyChanges.trans (onlyChanges.trans ?_ (enterPriming_frame p _))
      (setMeter_frame p _ _)) (stopQuiet_frame _ _)
    refine onlyChanges.trans ?_ (queueBulletin_frame _ _)
    exact onlyChanges.trans (onlyChanges.trans (onlyChanges.trans (modCtx_frame p _ s)
      (appendOpen_frame _ _)) (dropCheckpoints_frame p _)) (modCtx_frame p _ _)

theorem addOpenPreset_frame {l : List Part} (p : PointId) (fleet preset : Nat) (s : State)
    (h1 : Part.allowance ∈ l := by first | assumption | simp) : onlyChanges l s (addOpenPreset p fleet preset s) :=
  setAllowance_frame _ s

theorem refuseConfirm_frame {l : List Part} (p : PointId) (r : RefusalReason)
    (s : State) (hp : s.staysOrNoPark p) (h1 : Part.point p ∈ l := by first | assumption | simp)
    (h2 : Part.line p ∈ l := by first | assumption | simp)
    (h3 : Part.attention ∈ l := by first | assumption | simp) :
    onlyChanges l s (refuseConfirm p r s).1 :=
  enterRefused_frame p r _ s hp

theorem confirmPoint_frame {l : List Part} (p : PointId) (volume operator : Nat) (s : State)
    (hp : s.staysOrNoPark p)
    (h1 : Part.point p ∈ l := by first | assumption | simp) (h2 : Part.line p ∈ l := by first | assumption | simp)
    (h3 : Part.meter p ∈ l := by first | assumption | simp) (h4 : Part.comp (s.compartmentOf p) ∈ l := by first | assumption | simp)
    (h5 : Part.link ∈ l := by first | assumption | simp) (h6 : Part.peers ∈ l := by first | assumption | simp)
    (h7 : Part.ring ∈ l := by first | assumption | simp) (h8 : Part.rm ∈ l := by first | assumption | simp)
    (h9 : Part.checkpoints ∈ l := by first | assumption | simp) (ha : Part.attention ∈ l := by first | assumption | simp)
    (hf : Part.flags ∈ l := by first | assumption | simp) (hb : Part.allowance ∈ l := by first | assumption | simp) :
    onlyChanges l s (confirmPoint p volume operator s).1 := by
  have aside : ∀ m : List Part, Part.ring ∈ m → Part.attention ∈ m → Part.flags ∈ m →
      onlyChanges m s (giveSlotBack (setSlotAside s)) :=
    fun m _ _ _ => (setSlotAside_frame s).trans (giveSlotBack_frame _)
  have k := staysOrNoPark_of_frame (aside [.ring, .attention, .flags] (by simp) (by simp) (by simp)) hp
    (by simp) (by simp)
  unfold confirmPoint
  by_cases c1 : s.receiptOpen (s.compartmentOf p) = true
  · simp only [c1, if_true]
    exact refuseConfirm_frame p _ s hp
  by_cases c2 : s.aboveFloor = true
  case neg =>
    simp only [c1, c2, not_false_eq_true, if_true, Bool.false_eq_true, if_false]
    exact refuseConfirm_frame p _ s hp
  simp only [c1, c2, not_true_eq_false, Bool.false_eq_true, if_false]
  have key : ∀ t, onlyChanges [.ring, .attention, .flags, .point p, .allowance] s t →
      onlyChanges l s (openFill p t) := fun t ht => by
    have hc : t.compartmentOf p = s.compartmentOf p := by
      have := ht.2 .params (by simp)
      simp only [Part.same] at this
      simp [State.compartmentOf, State.pp, this]
    have h4' : Part.comp (t.compartmentOf p) ∈ l := hc ▸ h4
    exact (ht.mono (by simp [*])).trans (openFill_frame p t)
  have a := setSlotAside_frame (l := [.ring, .attention, .flags, .point p, .allowance]) s
  split
  · exact (aside l h7 ha hf).trans (refuseConfirm_frame p _ _ k)
  · simp only
    refine key _ ?_
    split
    · exact onlyChanges.trans (onlyChanges.trans a (modCtx_frame p _ _)) (addOpenPreset_frame p _ _ _)
    · exact onlyChanges.trans a (modCtx_frame p _ _)

/-- What the work of a point up to the opening of a fill may change. -/
def openParts (s : State) (p : PointId) : List Part :=
  [.point p, .line p, .meter p, .comp (s.compartmentOf p), .allowance, .link, .peers, .ring,
    .checkpoints, .rm, .attention, .flags]

theorem compartmentOf_of_frame {l : List Part} {s t : State} (h : onlyChanges l s t)
    (h1 : Part.params ∉ l) (p : PointId) : t.compartmentOf p = s.compartmentOf p := by
  have := h.2 .params h1
  simp only [Part.same] at this
  simp [State.compartmentOf, State.pp, this]

theorem offerMachine_frame (p : PointId) (m : RosterRecord) (tag : Option TagId) (s : State)
    (hp : s.staysOrNoPark p) : onlyChanges (openParts s p) s (offerMachine p m tag s) := by
  have h1 : Part.point p ∈ openParts s p := by simp [openParts]
  have h2 : Part.line p ∈ openParts s p := by simp [openParts]
  have h3 : Part.attention ∈ openParts s p := by simp [openParts]
  have key : ∀ t, onlyChanges [.point p, .line p] s t →
      onlyChanges (openParts s p) s (confirmPoint p (s.pp p).defaultPreset 0 t).1 := fun t ht => by
    have hc := compartmentOf_of_frame ht (by simp) p
    have hk := staysOrNoPark_of_frame ht hp (by simp) (by simp)
    refine (ht.mono (by simp [openParts])).trans
      (confirmPoint_frame p _ _ t hk h1 h2 ?_ ?_ ?_ ?_ ?_ ?_ ?_ h3 ?_ ?_) <;> simp [openParts, hc]
  unfold offerMachine
  by_cases c1 : s.receiptOpen (s.compartmentOf p) = true
  · simp only [c1, if_true]
    exact enterRefused_frame p _ _ s hp
  by_cases c2 : s.aboveFloor = true
  case neg =>
    simp only [c1, c2, not_false_eq_true, if_true, Bool.false_eq_true, if_false]
    exact enterRefused_frame p _ _ s hp
  simp only [c1, c2, not_true_eq_false, Bool.false_eq_true, if_false]
  split
  · exact enterRefused_frame p _ _ s hp
  · split
    · exact key _ (putPoint_frame p _ s)
    · exact (putPoint_frame p _ s).trans (raisePoint_frame p _ _)

theorem identify_frame (p : PointId) (found : Option RosterRecord) (tag : Option TagId) (s : State)
    (hp : s.staysOrNoPark p) : onlyChanges (openParts s p) s (identify p found tag s).1 := by
  unfold identify
  split
  · exact offerMachine_frame p _ tag s hp
  · exact enterRefused_frame p _ _ s hp (by simp [openParts]) (by simp [openParts]) (by simp [openParts])

/-! ### The close of a fill -/

theorem finalInterval_frame {l : List Part} (p : PointId) (d : Nat) (t : TempReading) (s : State)
    (h1 : Part.meter p ∈ l := by first | assumption | simp)
    (h2 : Part.flags ∈ l := by first | assumption | simp)
    (h3 : Part.faults ∈ l := by first | assumption | simp) :
    onlyChanges l s (finalInterval p d t s) := by
  dsimp only [finalInterval]
  exact (noteTemperature_frame p t s).trans (setMeter_frame p _ _)

theorem closeRecord_frame {l : List Part} (p : PointId) (s : State)
    (h1 : Part.checkpoints ∈ l := by first | assumption | simp)
    (h2 : Part.rm ∈ l := by first | assumption | simp) : onlyChanges l s (closeRecord p s) := by
  dsimp only [closeRecord]
  split
  · exact (dropCheckpoints_frame p s).trans (updateSlot_frame _ _ _)
  · exact dropCheckpoints_frame p s

/-- What the steps of a close may change. -/
def closeParts (s : State) (p : PointId) : List Part :=
  [.meter p, .comp (s.compartmentOf p), .allowance, .link, .peers, .totals, .checkpoints, .rm,
    .flags, .faults]

theorem setTotals_frame {l : List Part} (s : State) (a : Vector Account 32) (f : ShiftFigures)
    (h1 : Part.totals ∈ l := by first | assumption | simp) :
    onlyChanges l s (s.setJournal { s.journal with accounts := a, figures := f }) :=
  ⟨rfl, fun y hy => by cases y <;> simp_all [Part.same]⟩

theorem bill_frame {l : List Part} (s : State) (account product : Nat) (n cost count : Int)
    (h1 : Part.totals ∈ l := by first | assumption | simp) :
    onlyChanges l s (s.setJournal (addToAccount account n cost count (addToFigures product n s.journal))) := by
  have : ∃ a f, addToAccount account n cost count (addToFigures product n s.journal) =
      { s.journal with accounts := a, figures := f } := by
    unfold addToAccount addToFigures
    split <;> exact ⟨_, _, rfl⟩
  obtain ⟨a, f, h⟩ := this
  rw [h]
  exact setTotals_frame s a f

theorem deliverToView_frame {l : List Part} (p : PointId) (fleet : Nat) (net : Int) (s : State)
    (h1 : Part.allowance ∈ l := by first | assumption | simp) :
    onlyChanges l s (deliverToView p fleet net s) :=
  setAllowance_frame _ s

theorem bookClose_frame {l : List Part} (receipt : Bool) (c : CompId) (net : Int) (s : State)
    (h1 : Part.comp c ∈ l := by first | assumption | simp) :
    onlyChanges l s (bookClose receipt c net s) :=
  setComp_frame c _ s

theorem closeSteps_frame (p : PointId) (d : Nat) (t : TempReading) (s : State) :
    onlyChanges (closeParts s p) s (closeSteps p d t s) := by
  have a : ∀ l : List Part, Part.meter p ∈ l → Part.flags ∈ l → Part.faults ∈ l →
      Part.checkpoints ∈ l → Part.rm ∈ l → onlyChanges l s (closeRecord p (finalInterval p d t s)) :=
    fun l _ _ _ _ _ => (finalInterval_frame p d t s).trans (closeRecord_frame p _)
  have b := a [.meter p, .flags, .faults, .checkpoints, .rm] (by simp) (by simp) (by simp) (by simp)
    (by simp)
  have c := compartmentOf_of_frame b (by simp) p
  have b' : onlyChanges (closeParts s p) s (closeRecord p (finalInterval p d t s)) :=
    b.mono (by simp [closeParts])
  unfold closeSteps
  revert b' c
  generalize closeRecord p (finalInterval p d t s) = u
  intro c b'
  have hc : Part.comp (u.compartmentOf p) ∈ closeParts s p := by simp [closeParts, c]
  have h1 : Part.allowance ∈ closeParts s p := by simp [closeParts]
  have h2 : Part.totals ∈ closeParts s p := by simp [closeParts]
  have h3 : Part.link ∈ closeParts s p := by simp [closeParts]
  have h4 : Part.peers ∈ closeParts s p := by simp [closeParts]
  simp only
  split
  · refine b'.trans (onlyChanges.trans (onlyChanges.trans (onlyChanges.trans
      (deliverToView_frame p _ _ u) (bookClose_frame _ _ _ _)) (bill_frame _ _ _ _ _ _))
      (queueBulletin_frame _ _))
  · exact b'.trans (bookClose_frame _ _ _ _)

/-! ### Switches looked at, and events that reach several points -/

theorem offerReceipt_frame {l : List Part} (p : PointId) (s : State) (hp : s.staysOrNoPark p)
    (h1 : Part.point p ∈ l := by first | assumption | simp)
    (h2 : Part.line p ∈ l := by first | assumption | simp)
    (h3 : Part.attention ∈ l := by first | assumption | simp) :
    onlyChanges l s (offerReceipt p s) := by
  have r : ∀ e, onlyChanges l s (refuseBare p e s) := fun e => enterRefused_frame p e _ s hp
  dsimp only [offerReceipt]
  split
  · exact r _
  · split
    · exact r _
    · split
      · exact r _
      · split
        · exact r _
        · exact (putPoint_frame p _ s).trans (raisePoint_frame p _ _)

theorem lift_frame {l : List Part} (p : PointId) (s : State) (hp : s.staysOrNoPark p)
    (h1 : Part.point p ∈ l := by first | assumption | simp)
    (h2 : Part.line p ∈ l := by first | assumption | simp)
    (h3 : Part.attention ∈ l := by first | assumption | simp) : onlyChanges l s (lift p s) := by
  have r : ∀ e, onlyChanges l s (refuseBare p e s) := fun e => enterRefused_frame p e _ s hp
  unfold lift
  split
  · exact onlyChanges_refl _ _
  · split
    · exact r _
    · split
      · exact r _
      · split
        · exact r _
        · split
          · exact r _
          · exact putPoint_frame p _ s
    · exact onlyChanges_refl _ _

theorem couplingClosed_frame {l : List Part} (p : PointId) (s : State) (hp : s.staysOrNoPark p)
    (h1 : Part.point p ∈ l := by first | assumption | simp)
    (h2 : Part.line p ∈ l := by first | assumption | simp)
    (h3 : Part.attention ∈ l := by first | assumption | simp) :
    onlyChanges l s (couplingClosed p s) := by
  have r : ∀ e, onlyChanges l s (refuseBare p e s) := fun e => enterRefused_frame p e _ s hp
  unfold couplingClosed
  split
  · exact onlyChanges_refl _ _
  · split
    · exact r _
    · split
      · exact r _
      · split
        · exact r _
        · exact offerReceipt_frame p s hp
    · exact onlyChanges_refl _ _

/-- Looking at the switches as the mode enters RUN changes points, tag lines and POINT causes. -/
theorem levelRules_frame {l : List Part} (s : State)
    (h1 : ∀ p, Part.point p ∈ l := by simp) (h2 : ∀ p, Part.line p ∈ l := by simp)
    (h3 : Part.attention ∈ l := by first | assumption | simp) : onlyChanges l s (levelRules s) := by
  refine onlyChanges_foldl _ _ _ fun t p _ => ?_
  have a := h1 p
  have b := h2 p
  unfold levelRule
  split
  · rename_i h
    have hp : t.staysOrNoPark p := Or.inr (by simp [State.waits, h])
    unfold pointSwitch
    split
    · exact lift_frame p t hp
    · rename_i hv; exact absurd hv (by simp)
    · exact couplingClosed_frame p t hp
    · rename_i hv; exact absurd hv (by simp)
    · exact onlyChanges_refl _ _
  · exact onlyChanges_refl _ _

theorem powerMeters_frame {l : List Part} (s : State) (h1 : ∀ p, Part.meter p ∈ l := by simp) :
    onlyChanges l s (powerMeters s) :=
  onlyChanges_foldl _ _ _ fun t p _ => setMeter_frame p _ t (h1 p)

theorem wakeUp_frame {l : List Part} (r : WakeReason) (s : State)
    (h1 : ∀ p, Part.point p ∈ l := by simp) (h2 : ∀ p, Part.line p ∈ l := by simp)
    (h3 : ∀ p, Part.meter p ∈ l := by simp) (h4 : Part.attention ∈ l := by first | assumption | simp)
    (h5 : Part.mode ∈ l := by first | assumption | simp)
    (h6 : Part.scanner ∈ l := by first | assumption | simp)
    (h7 : Part.restarts ∈ l := by first | assumption | simp) : onlyChanges l s (wakeUp r s) := by
  refine onlyChanges.trans ?_ (levelRules_frame _ h1 h2)
  have a : onlyChanges l s (discardRuns (powerMeters (s.setMode .run))) :=
    onlyChanges.trans (onlyChanges.trans (setMode_frame _ s) (powerMeters_frame _ h3))
      (discardRuns_frame _)
  refine a.trans ?_
  exact ⟨rfl, fun y hy => by cases y <;> simp_all [Part.same]⟩

/-- Work done at each point in turn. -/
theorem eachPoint_frame {l : List Part} (f : PointId → State → State) (s : State)
    (h : ∀ p t, onlyChanges l t (f p t)) : onlyChanges l s (eachPoint f s) :=
  onlyChanges_foldl _ _ _ fun t p _ => h p t

/-- Work done at each point in turn, while some invariant holds. -/
theorem eachPoint_frame_of {l : List Part} (f : PointId → State → State) (P : State → Prop)
    (h : ∀ p t, P t → onlyChanges l t (f p t) ∧ P (f p t)) :
    ∀ s, P s → onlyChanges l s (eachPoint f s) ∧ P (eachPoint f s) := by
  have k : ∀ (ps : List PointId) (s : State), P s →
      onlyChanges l s (ps.foldl (fun s p => f p s) s) ∧ P (ps.foldl (fun s p => f p s) s) := by
    intro ps
    induction ps with
    | nil => exact fun s hs => ⟨onlyChanges_refl l s, hs⟩
    | cons p ps ih =>
      intro s hs
      obtain ⟨a, b⟩ := h p s hs
      obtain ⟨c, d⟩ := ih _ b
      exact ⟨a.trans c, d⟩
  exact k allPoints

theorem parkPending_of_frame {l : List Part} {s t : State} (h : onlyChanges l s t)
    (h1 : Part.park ∉ l) : t.port.parkPending = s.port.parkPending := (h.2 _ h1).2.2

theorem estopPoint_frame (p : PointId) (s : State) (hp : s.port.parkPending = false) :
    onlyChanges [.point p, .line p, .attention] s (estopPoint p s) := by
  have a := endCause_frame (l := [.point p, .line p, .attention]) p .estop s
  exact a.trans (refuseEvent_frame p _ _ (Or.inl (by rw [parkPending_of_frame a (by simp), hp])))

theorem brakePoint_frame (p : PointId) (s : State) (hp : s.port.parkPending = false) :
    onlyChanges [.point p, .line p, .attention] s (brakePoint p s) := by
  have a := endCause_frame (l := [.point p, .line p, .attention]) p .brakeReleased s
  exact onlyChanges.ite
    (a.trans (refuseEvent_frame p _ _ (Or.inl (by rw [parkPending_of_frame a (by simp), hp]))))
    (onlyChanges_refl _ _)

theorem haltPoint_frame (p : PointId) (s : State) (hp : s.port.parkPending = false) :
    onlyChanges [.point p, .line p, .attention] s (haltPoint p s) := by
  have a := endCause_frame (l := [.point p, .line p, .attention]) p .halt s
  exact a.trans (refuseEvent_frame p _ _ (Or.inl (by rw [parkPending_of_frame a (by simp), hp])))

/-! ### Probes -/

theorem lowLevel_frame {l : List Part} (c : CompId) (s : State) (h1 : ∀ p, Part.point p ∈ l := by simp)
    (h2 : ∀ p, Part.line p ∈ l := by simp) : onlyChanges l s (lowLevel c s) :=
  eachPoint_frame _ s fun p t => onlyChanges.ite (endCause_frame p _ t (h1 p) (h2 p)) (onlyChanges_refl _ _)

theorem probeFullReport_frame {l : List Part} (c : CompId) (s : State)
    (h1 : ∀ p, Part.point p ∈ l := by simp) (h2 : ∀ p, Part.line p ∈ l := by simp) :
    onlyChanges l s (probeFullReport c s) :=
  eachPoint_frame _ s fun p t => onlyChanges.ite (endCause_frame p _ t (h1 p) (h2 p)) (onlyChanges_refl _ _)

theorem probeToFault_frame {l : List Part} (c : CompId) (s : State)
    (h1 : Part.comp c ∈ l := by first | assumption | simp)
    (h2 : Part.attention ∈ l := by first | assumption | simp)
    (h3 : Part.flags ∈ l := by first | assumption | simp) : onlyChanges l s (probeToFault c s) := by
  refine onlyChanges.trans (onlyChanges.trans ?_ (modFlags_frame _ _)) (raiseStock_frame _ _)
  exact setComp_frame c _ s

/-- One compartment's sample changes that compartment, and points through the reports it brings. -/
theorem sampleProbe_frame {l : List Part} (c : CompId) (k : CompParams) (r : ProbeReading) (s : State)
    (h1 : Part.comp c ∈ l := by first | assumption | simp)
    (h2 : Part.attention ∈ l := by first | assumption | simp)
    (h3 : Part.flags ∈ l := by first | assumption | simp)
    (h4 : ∀ p, Part.point p ∈ l := by simp) (h5 : ∀ p, Part.line p ∈ l := by simp) :
    onlyChanges l s (sampleProbe c k r s) := by
  have f : onlyChanges l s (probeToFault c s) := probeToFault_frame c s
  have n := onlyChanges_refl l s
  have reports : ∀ (v w : Nat) t, onlyChanges l t (probeReports c k v w t) := fun v w t => by
    dsimp only [probeReports]
    split
    · split
      · exact (lowLevel_frame c t h4 h5).trans (probeFullReport_frame c _ h4 h5)
      · exact probeFullReport_frame c t h4 h5
    · split
      · exact lowLevel_frame c t h4 h5
      · exact onlyChanges_refl _ _
  unfold sampleProbe
  cases r with
  | level v =>
    simp only
    split
    · refine onlyChanges.trans ?_ (reports _ _ _)
      exact setComp_frame c _ s
    · exact n.ite f
  | faulty => exact n.ite f
  | missing =>
    simp only
    split
    · exact f.ite n
    · exact f.ite n
    · exact n

/-- The sample of every present compartment's probe, at START or after it, changes compartments, and points
through the reports it brings; what the lines give stands. -/
theorem sampleProbes_frame {l : List Part} (s : State)
    (h1 : ∀ c, Part.comp c ∈ l := by first | assumption | simp)
    (h2 : Part.attention ∈ l := by first | assumption | simp)
    (h3 : Part.flags ∈ l := by first | assumption | simp)
    (h4 : ∀ p, Part.point p ∈ l := by simp) (h5 : ∀ p, Part.line p ∈ l := by simp) :
    onlyChanges l s (sampleProbes s) :=
  onlyChanges_foldl _ _ _ fun t x _ => sampleProbe_frame x.1 x.2 _ t (h1 x.1) h2 h3 h4 h5

/-- Before START a sample changes what the probe lines give, and nothing else. -/
theorem setProbeLines_frame {l : List Part} (readings : Vector ProbeReading 3) (s : State)
    (h : Part.probing ∈ l := by first | assumption | simp) :
    onlyChanges l s (setProbeLines readings s) :=
  ⟨rfl, fun y hy => by cases y <;> simp_all [setProbeLines, Part.same, State.comp]⟩

end Sys2Proof.Machine
end

