-- ==== Sys2Proof/Laws/Memory.lean ====
section
/-! SUPPORT. The laws of the addressed memories: what a read gives after a write, and that every write
keeps the canonical form. -/

namespace Sys2Proof.Machine

/-! ### Image areas -/

theorem Mem.wfFrom_mono : ∀ (m : List Host.Cell) {lo hi : Nat}, lo ≤ hi → Mem.wfFrom hi m = true →
    Mem.wfFrom lo m = true
  | [], _, _, _, _ => rfl
  | (a, b) :: m, lo, hi, h, hw => by
    simp only [Mem.wfFrom, Bool.and_eq_true, decide_eq_true_eq] at hw ⊢
    exact ⟨⟨by omega, hw.1.2⟩, hw.2⟩

theorem Mem.read_below : ∀ (m : List Host.Cell) {lo k : Nat}, Mem.wfFrom lo m = true → k < lo →
    Mem.read m k = clearedByte
  | [], _, _, _, _ => rfl
  | (a, b) :: m, lo, k, hw, hk => by
    simp only [Mem.wfFrom, Bool.and_eq_true, decide_eq_true_eq] at hw
    have : a ≠ k := by omega
    simp only [Mem.read, this, if_false]
    exact Mem.read_below m hw.2 (by omega)

/-- A write keeps the canonical form. -/
theorem Mem.write_wfFrom : ∀ (m : List Host.Cell) {lo : Nat} (k : Nat) (v : Byte),
    Mem.wfFrom lo m = true → lo ≤ k → Mem.wfFrom lo (Mem.write m k v) = true
  | [], lo, k, v, _, hk => by
    simp only [Mem.write]
    split
    · rfl
    · rename_i hv
      simp [Mem.wfFrom, hk, hv]
  | (a, b) :: m, lo, k, v, hw, hk => by
    have hw' := hw
    simp only [Mem.wfFrom, Bool.and_eq_true, decide_eq_true_eq] at hw'
    simp only [Mem.write]
    split
    · split
      · exact hw
      · rename_i hka hv
        simp only [Mem.wfFrom, Bool.and_eq_true, decide_eq_true_eq]
        exact ⟨⟨hk, hv⟩, ⟨by omega, hw'.1.2⟩, hw'.2⟩
    · split
      · split
        · exact Mem.wfFrom_mono m (by omega) hw'.2
        · rename_i hka heq hv
          simp only [Mem.wfFrom, Bool.and_eq_true, decide_eq_true_eq]
          exact ⟨⟨hk, hv⟩, heq ▸ hw'.2⟩
      · simp only [Mem.wfFrom, Bool.and_eq_true, decide_eq_true_eq]
        exact ⟨hw'.1, Mem.write_wfFrom m k v hw'.2 (by omega)⟩

theorem Mem.write_wf (m : List Host.Cell) (k : Nat) (v : Byte) (h : Mem.wf m = true) :
    Mem.wf (Mem.write m k v) = true :=
  Mem.write_wfFrom m k v h (Nat.zero_le _)

/-- A read after a write to the same address gives the byte written. -/
theorem Mem.read_write_same_from : ∀ (m : List Host.Cell) {lo : Nat} (k : Nat) (v : Byte),
    Mem.wfFrom lo m = true → Mem.read (Mem.write m k v) k = v
  | [], _, k, v, _ => by
    simp only [Mem.write]
    split
    · rename_i hv; simp [Mem.read, hv]
    · simp [Mem.read]
  | (a, b) :: m, lo, k, v, hw => by
    have hw' := hw
    simp only [Mem.wfFrom, Bool.and_eq_true, decide_eq_true_eq] at hw'
    simp only [Mem.write]
    split
    · split
      · rename_i hka hv
        rw [hv]
        have : a ≠ k := by omega
        simp only [Mem.read, this, if_false]
        exact Mem.read_below m hw'.2 (by omega)
      · simp [Mem.read]
    · split
      · split
        · rename_i hka heq hv
          rw [hv]
          exact Mem.read_below m hw'.2 (by omega)
        · simp [Mem.read]
      · rename_i hka hne
        have : a ≠ k := fun e => hne e.symm
        simp only [Mem.read, this, if_false]
        exact Mem.read_write_same_from m k v hw'.2

theorem Mem.read_write_same (m : List Host.Cell) (k : Nat) (v : Byte) (h : Mem.wf m = true) :
    Mem.read (Mem.write m k v) k = v :=
  Mem.read_write_same_from m k v h

/-- A write leaves every other address alone. -/
theorem Mem.read_write_other : ∀ (m : List Host.Cell) (k j : Nat) (v : Byte), j ≠ k →
    Mem.read (Mem.write m k v) j = Mem.read m j
  | [], k, j, v, h => by
    simp only [Mem.write]
    split
    · rfl
    · simp [Mem.read, Ne.symm h]
  | (a, b) :: m, k, j, v, h => by
    simp only [Mem.write]
    split
    · split
      · rfl
      · simp [Mem.read, Ne.symm h]
    · split
      · rename_i hka heq
        have : a ≠ j := fun e => h (by omega)
        split
        · simp [Mem.read, this]
        · simp [Mem.read, this, Ne.symm h]
      · simp only [Mem.read]
        split
        · rfl
        · exact Mem.read_write_other m k j v h

/-! ### Slots -/

theorem slotsWfFrom_mono : ∀ (m : List (Nat × Slot)) {lo hi : Nat}, lo ≤ hi →
    slotsWfFrom hi m = true → slotsWfFrom lo m = true
  | [], _, _, _, _ => rfl
  | (a, x) :: m, lo, hi, h, hw => by
    simp only [slotsWfFrom, Bool.and_eq_true, decide_eq_true_eq] at hw ⊢
    exact ⟨by omega, hw.2⟩

/-- A slot written keeps the slots strictly rising. -/
theorem setSlot_wfFrom : ∀ (m : List (Nat × Slot)) {lo : Nat} (k : Nat) (v : Slot),
    slotsWfFrom lo m = true → lo ≤ k → slotsWfFrom lo (setSlot m k v) = true
  | [], lo, k, v, _, hk => by simp [setSlot, slotsWfFrom, hk]
  | (a, x) :: m, lo, k, v, hw, hk => by
    have hw' := hw
    simp only [slotsWfFrom, Bool.and_eq_true, decide_eq_true_eq] at hw'
    simp only [setSlot]
    split
    · simp only [slotsWfFrom, Bool.and_eq_true, decide_eq_true_eq]
      exact ⟨hk, by omega, hw'.2⟩
    · split
      · rename_i heq
        simp only [slotsWfFrom, Bool.and_eq_true, decide_eq_true_eq]
        exact ⟨hk, heq ▸ hw'.2⟩
      · simp only [slotsWfFrom, Bool.and_eq_true, decide_eq_true_eq]
        exact ⟨hw'.1, setSlot_wfFrom m k v hw'.2 (by omega)⟩

/-- The slot read at the position written. -/
theorem slotAt_setSlot_same : ∀ (m : List (Nat × Slot)) (k : Nat) (v : Slot),
    slotAt (setSlot m k v) k = some v
  | [], k, v => by simp [setSlot, slotAt]
  | (a, x) :: m, k, v => by
    simp only [setSlot]
    split
    · simp [slotAt]
    · split
      · simp [slotAt]
      · rename_i hne
        have : a ≠ k := fun e => hne e.symm
        simp only [slotAt, this, if_false]
        exact slotAt_setSlot_same m k v

/-- Every other slot stands. -/
theorem slotAt_setSlot_other : ∀ (m : List (Nat × Slot)) (k j : Nat) (v : Slot), j ≠ k →
    slotAt (setSlot m k v) j = slotAt m j
  | [], k, j, v, h => by simp [setSlot, slotAt, Ne.symm h]
  | (a, x) :: m, k, j, v, h => by
    simp only [setSlot]
    split
    · simp [slotAt, Ne.symm h]
    · split
      · rename_i heq
        have : a ≠ j := fun e => h (by omega)
        simp [slotAt, Ne.symm h, this]
      · simp only [slotAt]
        split
        · rfl
        · exact slotAt_setSlot_other m k j v h

/-- Content put into a slot keeps the slots strictly rising. -/
theorem putContent_wf (slots : List (Nat × Slot)) (k : Nat) (r : Record)
    (h : slotsWfFrom 0 slots = true) : slotsWfFrom 0 (putContent slots k r) = true := by
  unfold putContent
  split
  · split
    · exact h
    · exact setSlot_wfFrom _ _ _ h (Nat.zero_le _)
  · exact h

/-- Content put into a slot leaves the status and the journal seq of every slot as they were (R148). -/
theorem putContent_keeps (slots : List (Nat × Slot)) (k j : Nat) (r : Record) :
    (slotAt (putContent slots k r) j).map (fun x => (x.held, x.record.seq)) =
      (slotAt slots j).map (fun x => (x.held, x.record.seq)) := by
  unfold putContent
  split
  · rename_i x h
    split
    · rfl
    · rename_i hh
      by_cases e : j = k
      · subst e; rw [slotAt_setSlot_same, h]; simp [hh]
      · rw [slotAt_setSlot_other _ _ _ _ e]
  · rfl

/-! ### The record memory -/

@[simp] theorem RecordMemory.area_setArea_same (m : RecordMemory) (x : Area) (c : List Host.Cell) :
    (m.setArea x c).area x = c := by cases x <;> rfl

theorem RecordMemory.area_setArea_other (m : RecordMemory) (x y : Area) (c : List Host.Cell)
    (h : x ≠ y) : (m.setArea x c).area y = m.area y := by
  cases x <;> cases y <;> first | rfl | exact absurd rfl h

/-- The record memory is canonical exactly when its areas and its slots are. -/
theorem RecordMemory.wf_iff (m : RecordMemory) :
    m.wf = true ↔ Mem.wf (m.area .a) = true ∧ Mem.wf (m.area .b) = true ∧ slotsWfFrom 0 m.slots = true := by
  simp [RecordMemory.wf, RecordMemory.area, and_assoc]

/-- Every write keeps the record memory canonical. -/
theorem RecordMemory.write_wf (m : RecordMemory) (w : RmWrite) (h : m.wf = true) :
    (m.write w).wf = true := by
  rw [RecordMemory.wf_iff] at h ⊢
  obtain ⟨ha, hb, hs⟩ := h
  cases w with
  | clearArea x => cases x <;> exact ⟨by first | rfl | exact ha, by first | rfl | exact hb, hs⟩
  | byte x k b =>
    cases x
    · exact ⟨Mem.write_wf _ _ _ ha, hb, hs⟩
    · exact ⟨ha, Mem.write_wf _ _ _ hb, hs⟩
  | selector x => exact ⟨ha, hb, hs⟩
  | baseline c b => exact ⟨ha, hb, hs⟩
  | slot k x => exact ⟨ha, hb, setSlot_wfFrom _ _ _ hs (Nat.zero_le _)⟩
  | content k r => exact ⟨ha, hb, putContent_wf _ _ _ hs⟩

/-- A sequence of writes keeps the record memory canonical. -/
theorem RecordMemory.writeAll_wf : ∀ (ws : List RmWrite) (m : RecordMemory), m.wf = true →
    (m.writeAll ws).wf = true
  | [], _, h => h
  | w :: ws, m, h => RecordMemory.writeAll_wf ws (m.write w) (RecordMemory.write_wf m w h)

end Sys2Proof.Machine
end

