-- ==== Sys2Proof/Laws/Operations.lean ====
section
/-! SUPPORT. What each shared operation does, said once: the driven outputs, how a request is taken, the
points, the journal, the link. -/

namespace Sys2Proof.Machine

/-! ### Outputs -/

variable (s : State)

@[simp] theorem drive_pending : (drive s).pending = s.pending := rfl
@[simp] theorem drive_powered : (drive s).powered = s.powered := rfl
@[simp] theorem drive_mode : (drive s).mode = s.mode := rfl
@[simp] theorem drive_params : (drive s).params = s.params := rfl
@[simp] theorem drive_scanner : (drive s).scanner = s.scanner := rfl
@[simp] theorem drive_lines : (drive s).lines = s.lines := rfl
@[simp] theorem drive_meters : (drive s).meters = s.meters := rfl
@[simp] theorem drive_allowance : (drive s).allowance = s.allowance := rfl
@[simp] theorem drive_link : (drive s).link = s.link := rfl
@[simp] theorem drive_peers : (drive s).peers = s.peers := rfl
@[simp] theorem drive_stock : (drive s).stock = s.stock := rfl
@[simp] theorem drive_journal : (drive s).journal = s.journal := rfl
@[simp] theorem drive_metrology : (drive s).metrology = s.metrology := rfl
@[simp] theorem drive_rm : (drive s).rm = s.rm := rfl
@[simp] theorem drive_free : (drive s).free = s.free := rfl
@[simp] theorem drive_port :
    (drive s).port = { s.port with attentionOut := s.port.attention.isPending } := rfl
@[simp] theorem drive_line (p : PointId) : (drive s).line p = s.line p := rfl
@[simp] theorem drive_meter (p : PointId) : (drive s).meter p = s.meter p := rfl
@[simp] theorem drive_comp (c : CompId) : (drive s).comp c = s.comp c := rfl

/-- After a command a point is as it was left, with its valve driven. -/
@[simp] theorem drive_point (p : PointId) :
    (drive s).point p = { s.point p with valve := s.drivenStage p } :=
  match p with
  | 0 => rfl
  | 1 => rfl
  | 2 => rfl
  | 3 => rfl

/-- What R20 asks is what is driven. -/
theorem drive_valvesDriven : ValvesDriven (drive s) := by
  intro p
  simp only [drive_point, State.drivenStage, State.valveAllowed, PointState.asksFor, drive_mode,
    drive_scanner, drive_metrology, Bool.and_eq_true, beq_iff_eq, Bool.or_eq_true, bne_iff_ne]
  have h : (drive s).role p = s.role p := rfl
  rw [h]
  by_cases hd : s.role p = .delivery <;> cases (s.point p).state <;> simp [hd, and_assoc]

/-- The attention output follows the causes. -/
theorem drive_attentionShown : AttentionShown (drive s) := rfl

/-- Every command answers a next state, its outputs driven. -/
theorem exec_next (i : Instr) : ∃ x : State, exec i s = .next (drive x) := by
  cases i <;> exact ⟨_, rfl⟩

variable {s}

/-! ### Requests -/

/-- A request in its mode is worked. -/
theorem takeRequest_ready {i : Instr} (h : s.ready) (hm : takenIn i s.mode = true) :
    takeRequest i s = workRequest i s := by
  simp [takeRequest, h.1, h.2, hm]

/-- A request in another mode is refused with WRONG_MODE. -/
theorem takeRequest_wrongMode {i : Instr} (h : s.ready) (hm : takenIn i s.mode = false) :
    takeRequest i s = respond ((requestCode i).getD 0) ⟨.wrongMode, []⟩ s := by
  simp [takeRequest, h.1, h.2, hm]

/-- A frame holds of a command's next state when it holds of the state before its outputs are driven. -/
theorem onlyChanges.driven {l : List Part} {t : State} (h : onlyChanges l s t) :
    onlyChanges l s (drive t) :=
  h.trans (drive_frame l t)

/-- A request changes what its work changes and the exchange. -/
theorem workRequest_frame {l : List Part} (i : Instr) (h : onlyChanges l s (perform i s).1)
    (h1 : Part.exchange ∈ l := by first | assumption | simp) : onlyChanges l s (workRequest i s) :=
  h.trans (respond_frame _ _ _)

/-- A request answers with its code, its result and its body. -/
theorem workRequest_answered (i : Instr) (code : Byte) (hc : requestCode i = some code) :
    answered (workRequest i s) code (perform i s).2.result (perform i s).2.body := by
  simp [answered, workRequest, respond, hc]

/-- A LOAD_IMAGE END in work is decided by the CAL value taken with it (R4). -/
@[simp] theorem performTaken_loadImageEnd (s : State) :
    performTaken .loadImageEnd s = doLoadEnd s.port.takenCal s := rfl

/-- Every other request in work does what the request does. -/
theorem performTaken_other (i : Instr) (s : State) (h : i ≠ .loadImageEnd) :
    performTaken i s = perform i s := by
  cases i <;> first | rfl | exact absurd rfl h

/-! ### Points -/

@[simp] theorem powerLine_point (p q : PointId) : (powerLine p s).point q = s.point q := by
  dsimp only [powerLine]; split <;> rfl

@[simp] theorem powerLine_mode (p : PointId) : (powerLine p s).mode = s.mode := by
  dsimp only [powerLine]; split <;> rfl

/-- A tag line ends powered as its point's state and the mode require (R5). -/
theorem powerLine_powered (p : PointId) :
    ((powerLine p s).line p).powered = linePowered s.mode (s.point p).state := by
  dsimp only [powerLine]
  split
  · assumption
  · simp [TagLine.repower]

@[simp] theorem putPoint_point_same (p : PointId) (x : Point) : (putPoint p x s).point p = x := by
  simp [putPoint]

theorem putPoint_point_other (p q : PointId) (x : Point) (h : p ≠ q) :
    (putPoint p x s).point q = s.point q := by
  simp [putPoint, State.setPoint_point_other _ _ _ _ h]

/-- A refusal of a point that waits: REFUSED with the reason, and the POINT cause. -/
theorem enterRefused_waits (p : PointId) (r : RefusalReason) (c : FillContext) (h : s.waits p) :
    enterRefused p r c s = raisePoint p (.refused r) (putPoint p
      { s.point p with state := .refused, timers := .stopped, ctx := { c with refusal := some r } } s) := by
  unfold enterRefused
  apply settleAtRest_waits
  simpa [State.waits, State.switchAt, raisePoint, putPoint_scanner] using h

/-- A point that enters IDLE while no park is pending. -/
theorem enterIdle_noPark (p : PointId) (h : s.port.parkPending = false) :
    enterIdle p s = putPoint p { Point.reset with valve := (s.point p).valve } s := by
  simp [enterIdle, checkPark, putPoint_port, h]

/-- An end cause at an endable point: CLOSING, with the reason and the two closing timers. -/
theorem endCause_endable (p : PointId) (e : EndCause) (h : (s.point p).state.endable = true) :
    endCause p e s = enterClosing p e s := by
  simp [endCause, h]

/-- An end cause acts in no other state. -/
theorem endCause_other (p : PointId) (e : EndCause) (h : (s.point p).state.endable = false) :
    endCause p e s = s := by
  simp [endCause, h]

/-! ### The journal -/

/-- A record changed in place keeps the slots strictly rising. -/
theorem changeRecord_wf (slots : List (Nat × Slot)) (k : Nat) (f : Record → Record)
    (h : slotsWfFrom 0 slots = true) : slotsWfFrom 0 (changeRecord slots k f) = true := by
  unfold changeRecord
  split
  · exact setSlot_wfFrom _ _ _ h (Nat.zero_le _)
  · exact h

/-- The record of the slot changed. -/
theorem slotAt_changeRecord_same (slots : List (Nat × Slot)) (k : Nat) (f : Record → Record) :
    slotAt (changeRecord slots k f) k =
      (slotAt slots k).map (fun x => { x with record := f x.record }) := by
  unfold changeRecord
  split
  · rename_i x h
    rw [slotAt_setSlot_same, h]; rfl
  · rename_i h
    rw [h]; rfl

/-- The records of the other slots stand. -/
theorem slotAt_changeRecord_other (slots : List (Nat × Slot)) (k j : Nat) (f : Record → Record)
    (h : j ≠ k) : slotAt (changeRecord slots k f) j = slotAt slots j := by
  unfold changeRecord
  split
  · exact slotAt_setSlot_other _ _ _ _ h
  · rfl

/-- What judging a journal condition leaves alone: record memory and the place of the ring. -/
def sameRing (s t : State) : Prop :=
  t.rm = s.rm ∧ t.journal.oldest = s.journal.oldest ∧ t.journal.held = s.journal.held ∧
    t.journal.nextSeq = s.journal.nextSeq ∧ t.journal.setAside = s.journal.setAside

theorem judgeLow_ring : sameRing s (judgeLow s) := by
  unfold judgeLow
  dsimp only
  split <;> exact ⟨rfl, rfl, rfl, rfl, rfl⟩

theorem judgeFull_ring : sameRing s (judgeFull s) := by
  unfold judgeFull
  dsimp only
  split <;> exact ⟨rfl, rfl, rfl, rfl, rfl⟩

/-- Judging the journal conditions leaves the record memory and the ring's place alone. -/
theorem judgeJournal_ring : sameRing s (judgeJournal s) := by
  obtain ⟨a, b, c, d, e⟩ := judgeLow_ring (s := s)
  obtain ⟨a', b', c', d', e'⟩ := judgeFull_ring (s := judgeLow s)
  exact ⟨a'.trans a, b'.trans b, c'.trans c, d'.trans d, e'.trans e⟩

/-- What an append does: the record at the write position, the run one longer, the next seq one up. -/
theorem appendRecord_eq (closed : Bool) (body : RecordBody) :
    slotAt (appendRecord closed body s).rm.slots s.journal.writePosition =
        some ⟨true, s.newRecord closed body⟩ ∧
      (∀ k, k ≠ s.journal.writePosition →
        slotAt (appendRecord closed body s).rm.slots k = slotAt s.rm.slots k) ∧
      (appendRecord closed body s).journal =
        { s.journal with held := s.journal.held + 1, nextSeq := s.journal.nextSeq + 1 } :=
  ⟨slotAt_setSlot_same _ _ _, fun _ h => slotAt_setSlot_other _ _ _ _ h, rfl⟩

/-! ### Metering -/

/-- What an interval of `d` ms does to a channel: the values that R51 to R58 give. -/
theorem intervalFigures_endsInterval (s : State) (p : PointId) (d : Nat) (temp : TempReading)
    (m : Channel) (mp : MeterParams) (q : Fin 8) (hm : s.params.meters[p] = some mp)
    (hq : s.productAt p = q.val + 1) :
    EndsInterval mp s.params.products[q] d temp m (s.intervalFigures p d temp m) := by
  have hp : s.mp p = mp := by simp [State.mp, hm]
  have hf : ∀ x : Int, s.factorAt p x =
      if s.params.products[q].compensated then 1000000 - s.params.products[q].alpha * (x - 150)
      else 1000000 := fun x => by
    have : productOf (q.val + 1) = some q := by
      unfold productOf
      rw [dif_pos ⟨by omega, by omega⟩]
      exact congrArg some (Fin.ext (by simp))
    simp [State.factorAt, State.productParams, hq, this, factorOf]
  refine ⟨?_, ?_, ?_, rfl, rfl, rfl, ?_, ?_, rfl, rfl, rfl, ?_, ?_⟩
  · simp [State.intervalFigures, hp, bandOf, rateOf]
  · cases temp <;> rfl
  · simp [State.intervalFigures, hp, Int.max_comm]
  · simp [State.intervalFigures, hp, grossOf, floorDiv]
  · simp only [State.intervalFigures, netOf, floorDiv, hf]
  · cases temp <;> rfl
  · simp [State.intervalFigures, hp]

/-! ### Allowances and stock -/

/-- A hold stays after a tick exactly when its expiry is not past (R77). -/
theorem dropPastHolds_mem (s : State) (h : Hold) :
    h ∈ (dropPastHolds s).allowance.holds ↔ h ∈ s.allowance.holds ∧ s.now ≤ h.expiry := by
  simp [dropPastHolds]

/-- Before 600 s of quiet no variance check falls due (R138). -/
theorem varianceDue_early (c : CompId) (n : Nat) (h : (s.comp c).quiet = some n) (hn : n < 600) :
    varianceDue c s = s := by
  unfold varianceDue
  split
  · rename_i hq
    rw [h] at hq
    cases hq
    rw [if_neg (fun x => absurd x.2 (by simp only [quietPeriod]; omega))]
  · rfl

/-- The check timer does nothing while a second is left on it (R174). -/
theorem checkTimerExpired_early (n : Nat) (h : s.metrology.timer = some (n + 1)) :
    checkTimerExpired s = s := by
  simp [checkTimerExpired, h]

/-- The members of the restock queue after an insertion. -/
theorem mem_insertEntry (e x : RestockEntry) : ∀ q : List RestockEntry,
    x ∈ insertEntry e q ↔ x = e ∨ x ∈ q
  | [] => by simp [insertEntry]
  | y :: q => by
    unfold insertEntry
    split
    · simp
    · simp only [List.mem_cons, mem_insertEntry e x q, or_left_comm]

/-- An insertion adds one entry. -/
theorem length_insertEntry (e : RestockEntry) : ∀ q : List RestockEntry,
    (insertEntry e q).length = q.length + 1
  | [] => rfl
  | y :: q => by
    unfold insertEntry
    split
    · rfl
    · simp [length_insertEntry e q]

/-- While the own entry is not kept out of the queue, a removal offers nothing (R141). -/
theorem offerOwnAgain_idle (h : s.stock.active = false ∨ s.stock.displacedMark = false) :
    offerOwnAgain s = s := by
  unfold offerOwnAgain
  rcases h with h | h <;> simp [h]

/-- While the own entry is not kept out of the queue, a peer's entry is created as any other. -/
theorem createPeerEntry_idle (e : RestockEntry) (h : s.stock.displacedMark = false) :
    createPeerEntry e s = createEntry e s := by
  simp [createPeerEntry, h]

/-! ### The link -/

/-- A task of the link changes, of the Peer and Shift Unit, the round in progress alone. -/
theorem linkTask_peers (t : LinkTask) (s : State) :
    ∃ r, (linkTask t s).1.peers = { s.peers with round := r } := by
  have busy : ∀ u : State, (busyFinding u).1.peers = u.peers := fun u => by
    dsimp only [busyFinding]
    split
    · rfl
    · split <;> rfl
  cases t with
  | begin =>
    refine ⟨s.peers.round, ?_⟩
    simp only [linkTask, beginAttempt]
    split
    · split
      · rw [busy]; rfl
      · rfl
    · rfl
  | left b =>
    simp only [linkTask, leftTask]
    split
    · split
      · split <;> exact ⟨_, rfl⟩
      · exact ⟨s.peers.round, rfl⟩
    · exact ⟨s.peers.round, rfl⟩
  | send body urgent => exact ⟨s.peers.round, rfl⟩

/-- The link's work changes, of the Peer and Shift Unit, the tally generator alone: the round, its number
and the pending count, which stays or falls to 0. -/
theorem runLink_peers : ∀ (n : Nat) (ts : List LinkTask) (s : State), ∃ r k m,
    (runLink n ts s).peers = { s.peers with round := r, pendingCount := k, nextRound := m } ∧
      (k = s.peers.pendingCount ∨ k = 0)
  | 0, ts, s => by cases ts <;> exact ⟨_, _, _, rfl, Or.inl rfl⟩
  | n + 1, [], s => by
    simp only [runLink]
    split
    · split
      · obtain ⟨r, k, m, h, hk⟩ := runLink_peers n [.send ((beginRound false s).tallyBody _ 0) false]
          (beginRound false s)
        refine ⟨r, k, m, h.trans rfl, Or.inr ?_⟩
        rcases hk with hk | hk
        · exact hk
        · exact hk
      · exact ⟨_, _, _, rfl, Or.inr rfl⟩
    · exact ⟨_, _, _, rfl, Or.inl rfl⟩
  | n + 1, t :: ts, s => by
    simp only [runLink]
    obtain ⟨r, h⟩ := linkTask_peers t s
    obtain ⟨r', k, m, h', hk⟩ := runLink_peers n ((linkTask t s).2 ++ ts) (linkTask t s).1
    rw [h] at h' hk
    exact ⟨r', k, m, h', hk⟩

/-- With no tally period pending the link's work changes, of the Peer and Shift Unit, the round alone. -/
theorem runLink_peers_idle : ∀ (n : Nat) (ts : List LinkTask) (s : State), s.peers.pendingCount = 0 →
    ∃ r, (runLink n ts s).peers = { s.peers with round := r }
  | 0, ts, s, _ => by cases ts <;> exact ⟨s.peers.round, rfl⟩
  | n + 1, [], s, h0 => by
    have : s.roundDue = false := by simp [State.roundDue, h0]
    simp only [runLink, this, Bool.false_eq_true, if_false]
    exact ⟨s.peers.round, rfl⟩
  | n + 1, t :: ts, s, h0 => by
    simp only [runLink]
    obtain ⟨r, h⟩ := linkTask_peers t s
    obtain ⟨r', h'⟩ := runLink_peers_idle n ((linkTask t s).2 ++ ts) (linkTask t s).1 (by rw [h]; exact h0)
    rw [h] at h'
    exact ⟨r', h'⟩

/-- A round started takes the next round number, with no period left pending (R122). -/
theorem startRound_peers (urgent : Bool) (s : State) : ∃ r, (startRound urgent s).peers =
    { s.peers with pendingCount := 0, nextRound := (s.peers.nextRound + 1) % 256, round := r } := by
  simp only [startRound, beginRound, State.setPeers_peers]
  obtain ⟨r, h⟩ := runLink_peers_idle linkFuel [.send ((beginRound urgent s).tallyBody _ 0) urgent]
    (beginRound urgent s) rfl
  exact ⟨r, h⟩

end Sys2Proof.Machine
end

