-- ==== Sys2Proof/Laws/PerInstr.lean ====
section
/-! SUPPORT. What holds of every command as syntax, one lemma for each constructor: the code of a request
is one of the codes 01h..1Dh of Table 11-9, and an event of the controller has none. -/

namespace Sys2Proof.Laws.RequestCodes

open Sys2Proof.Machine

/-- The code of a command, if it is a request, is one of Table 11-9. -/
def Statement (i : Instr) : Prop := ∀ c : Byte, requestCode i = some c → 1 ≤ c.toNat ∧ c.toNat ≤ 0x1D

theorem powerOn : Statement .powerOn := fun _ h => nomatch h
theorem reset : Statement .reset := fun _ h => by cases h; decide
theorem terminalExchange (frame : List Byte) : Statement (.terminalExchange frame) := fun _ h => nomatch h
theorem requestComplete : Statement .requestComplete := fun _ h => nomatch h
theorem loadImageBegin (total : BitVec 16) :
    Statement (.loadImageBegin total) := fun _ h => by cases h; decide
theorem loadImageData (offset : BitVec 16) (bytes : List Byte) :
    Statement (.loadImageData offset bytes) := fun _ h => by cases h; decide
theorem loadImageEnd : Statement .loadImageEnd := fun _ h => by cases h; decide
theorem commission : Statement .commission := fun _ h => by cases h; decide
theorem setTime (time : BitVec 32) : Statement (.setTime time) := fun _ h => by cases h; decide
theorem start : Statement .start := fun _ h => by cases h; decide
theorem park (poll wake : Byte) : Statement (.park poll wake) := fun _ h => by cases h; decide
theorem wake : Statement .wake := fun _ h => by cases h; decide
theorem confirm (point : Byte) (volume : BitVec 32) (operator : BitVec 16) :
    Statement (.confirm point volume operator) := fun _ h => by cases h; decide
theorem manualId (point : Byte) (fleet : BitVec 16) :
    Statement (.manualId point fleet) := fun _ h => by cases h; decide
theorem stop (point : Byte) : Statement (.stop point) := fun _ h => by cases h; decide
theorem restore (point : Byte) : Statement (.restore point) := fun _ h => by cases h; decide
theorem setPrice (product : Byte) (price : BitVec 32) :
    Statement (.setPrice product price) := fun _ h => by cases h; decide
theorem holdPrices : Statement .holdPrices := fun _ h => by cases h; decide
theorem releasePrices : Statement .releasePrices := fun _ h => by cases h; decide
theorem void (seq : BitVec 32) : Statement (.void seq) := fun _ h => by cases h; decide
theorem readJournal (mode filter count : Byte) :
    Statement (.readJournal mode filter count) := fun _ h => by cases h; decide
theorem exportDone (seq : BitVec 32) : Statement (.exportDone seq) := fun _ h => by cases h; decide
theorem stocktake (compartment : Byte) (volume : BitVec 32) :
    Statement (.stocktake compartment volume) := fun _ h => by cases h; decide
theorem purgeLink : Statement .purgeLink := fun _ h => by cases h; decide
theorem readPoint (point : Byte) : Statement (.readPoint point) := fun _ h => by cases h; decide
theorem readAccount (account : Byte) : Statement (.readAccount account) := fun _ h => by cases h; decide
theorem readStock : Statement .readStock := fun _ h => by cases h; decide
theorem readView (fleet : BitVec 16) : Statement (.readView fleet) := fun _ h => by cases h; decide
theorem readPeers : Statement .readPeers := fun _ h => by cases h; decide
theorem readLink : Statement .readLink := fun _ h => by cases h; decide
theorem readStatus : Statement .readStatus := fun _ h => by cases h; decide
theorem readAttention : Statement .readAttention := fun _ h => by cases h; decide
theorem readConditions : Statement .readConditions := fun _ h => by cases h; decide
theorem readFaults : Statement .readFaults := fun _ h => by cases h; decide
theorem switchSample (levels : SwitchLevels) : Statement (.switchSample levels) := fun _ h => nomatch h
theorem tagCharacterReceived (p : PointId) (char : Byte) (stopBit : Bool) :
    Statement (.tagCharacterReceived p char stopBit) := fun _ h => nomatch h
theorem tagByteTaken (p : PointId) : Statement (.tagByteTaken p) := fun _ h => nomatch h
theorem tagTimeoutError (p : PointId) : Statement (.tagTimeoutError p) := fun _ h => nomatch h
theorem tagLossTimerExpiry (p : PointId) : Statement (.tagLossTimerExpiry p) := fun _ h => nomatch h
theorem confirmWindowExpiry (p : PointId) : Statement (.confirmWindowExpiry p) := fun _ h => nomatch h
theorem primeTimeExpiry (p : PointId) : Statement (.primeTimeExpiry p) := fun _ h => nomatch h
theorem noFlowTimerExpiry (p : PointId) : Statement (.noFlowTimerExpiry p) := fun _ h => nomatch h
theorem pauseGraceExpiry (p : PointId) : Statement (.pauseGraceExpiry p) := fun _ h => nomatch h
theorem closeSettleExpiry (p : PointId) (ms : Nat) (temp : TempReading) :
    Statement (.closeSettleExpiry p ms temp) := fun _ h => nomatch h
theorem closeTimeout (p : PointId) (ms : Nat) (temp : TempReading) :
    Statement (.closeTimeout p ms temp) := fun _ h => nomatch h
theorem meterEdge (p : PointId) (line : MeterLine) : Statement (.meterEdge p line) := fun _ h => nomatch h
theorem doubleTransition (p : PointId) : Statement (.doubleTransition p) := fun _ h => nomatch h
theorem intervalEnd (p : PointId) (temp : TempReading) :
    Statement (.intervalEnd p temp) := fun _ h => nomatch h
theorem stoppedTemperatureSample (p : PointId) (temp : TempReading) :
    Statement (.stoppedTemperatureSample p temp) := fun _ h => nomatch h
theorem checkpointWriteComplete (p : PointId) :
    Statement (.checkpointWriteComplete p) := fun _ h => nomatch h
theorem holdExpiry (peer fleet : Nat) : Statement (.holdExpiry peer fleet) := fun _ h => nomatch h
theorem quietWaitComplete : Statement .quietWaitComplete := fun _ h => nomatch h
theorem backoffEnd : Statement .backoffEnd := fun _ h => nomatch h
theorem carrierAppears : Statement .carrierAppears := fun _ h => nomatch h
theorem carrierDrops : Statement .carrierDrops := fun _ h => nomatch h
theorem transmissionEnd : Statement .transmissionEnd := fun _ h => nomatch h
theorem jammed : Statement .jammed := fun _ h => nomatch h
theorem linkCharacterReceived (char : Byte) (stopBit : Bool) :
    Statement (.linkCharacterReceived char stopBit) := fun _ h => nomatch h
theorem gapError : Statement .gapError := fun _ h => nomatch h
theorem frameTaken : Statement .frameTaken := fun _ h => nomatch h
theorem duplicateIdCeases : Statement .duplicateIdCeases := fun _ h => nomatch h
theorem siteTimeTick : Statement .siteTimeTick := fun _ h => nomatch h
theorem peerSilent (station : Nat) : Statement (.peerSilent station) := fun _ h => nomatch h
theorem peerLost (station : Nat) : Statement (.peerLost station) := fun _ h => nomatch h
theorem tallyTimerExpiry : Statement .tallyTimerExpiry := fun _ h => nomatch h
theorem probeSample (readings : Vector ProbeReading 3) :
    Statement (.probeSample readings) := fun _ h => nomatch h
theorem varianceCheck (c : CompId) : Statement (.varianceCheck c) := fun _ h => nomatch h
theorem restockEntryAgeing (station : Nat) :
    Statement (.restockEntryAgeing station) := fun _ h => nomatch h
theorem checkTimerExpiry : Statement .checkTimerExpiry := fun _ h => nomatch h
theorem metrologyCheckComplete (changed : List Host.Cell) (worn : BitVec 32) :
    Statement (.metrologyCheckComplete changed worn) := fun _ h => nomatch h
theorem powerLoss : Statement .powerLoss := fun _ h => nomatch h

end Sys2Proof.Laws.RequestCodes
end

