-- ==== Sys2Proof/Laws/Requests.lean ====
section
/-! SUPPORT. Each request of the terminal by itself: its modes (Table 10-1), its code (Table 11-9), what
works it, and whether it stays in work after its exchange (R176). -/

namespace Sys2Proof.Machine

variable (s : State) (m : Mode)

@[simp] theorem takenIn_loadImageBegin (total : BitVec 16) : takenIn (.loadImageBegin total) m = (m == .commission) := rfl
@[simp] theorem requestCode_loadImageBegin (total : BitVec 16) : requestCode (.loadImageBegin total) = some 0x01 := rfl
@[simp] theorem perform_loadImageBegin (total : BitVec 16) : perform (.loadImageBegin total) s = doLoadBegin total s := rfl
@[simp] theorem goesInWork_loadImageBegin (total : BitVec 16) : goesInWork (.loadImageBegin total) s = true := rfl

@[simp] theorem takenIn_loadImageData (offset : BitVec 16) (bytes : List Byte) : takenIn (.loadImageData offset bytes) m = (m == .commission) := rfl
@[simp] theorem requestCode_loadImageData (offset : BitVec 16) (bytes : List Byte) : requestCode (.loadImageData offset bytes) = some 0x01 := rfl
@[simp] theorem perform_loadImageData (offset : BitVec 16) (bytes : List Byte) : perform (.loadImageData offset bytes) s = doLoadData offset bytes s := rfl
@[simp] theorem goesInWork_loadImageData (offset : BitVec 16) (bytes : List Byte) : goesInWork (.loadImageData offset bytes) s = true := rfl

@[simp] theorem takenIn_loadImageEnd : takenIn .loadImageEnd m = (m == .commission) := rfl
@[simp] theorem requestCode_loadImageEnd : requestCode .loadImageEnd = some 0x01 := rfl
@[simp] theorem perform_loadImageEnd : perform .loadImageEnd s = doLoadEnd s.metrology.cal s := rfl
@[simp] theorem goesInWork_loadImageEnd : goesInWork .loadImageEnd s = true := rfl

@[simp] theorem takenIn_commission : takenIn .commission m = (m == .standby) := rfl
@[simp] theorem requestCode_commission : requestCode .commission = some 0x02 := rfl
@[simp] theorem perform_commission : perform .commission s = doCommission s := rfl
@[simp] theorem goesInWork_commission : goesInWork .commission s = false := rfl

@[simp] theorem takenIn_setTime (t : BitVec 32) : takenIn (.setTime t) m = (m == .standby) := rfl
@[simp] theorem requestCode_setTime (t : BitVec 32) : requestCode (.setTime t) = some 0x03 := rfl
@[simp] theorem perform_setTime (t : BitVec 32) : perform (.setTime t) s = doSetTime t s := rfl
@[simp] theorem goesInWork_setTime (t : BitVec 32) : goesInWork (.setTime t) s = false := rfl

@[simp] theorem takenIn_start : takenIn .start m = (m == .standby) := rfl
@[simp] theorem requestCode_start : requestCode .start = some 0x04 := rfl
@[simp] theorem perform_start : perform .start s = doStart s := rfl
@[simp] theorem goesInWork_start : goesInWork .start s = true := rfl

@[simp] theorem takenIn_park (poll : Byte) (wake : Byte) : takenIn (.park poll wake) m = (m == .run) := rfl
@[simp] theorem requestCode_park (poll : Byte) (wake : Byte) : requestCode (.park poll wake) = some 0x05 := rfl
@[simp] theorem perform_park (poll : Byte) (wake : Byte) : perform (.park poll wake) s = doPark poll wake s := rfl
@[simp] theorem goesInWork_park (poll : Byte) (wake : Byte) : goesInWork (.park poll wake) s = false := rfl

@[simp] theorem takenIn_wake : takenIn .wake m = (m == .run || m == .parked) := rfl
@[simp] theorem requestCode_wake : requestCode .wake = some 0x06 := rfl
@[simp] theorem perform_wake : perform .wake s = doWake s := rfl
@[simp] theorem goesInWork_wake : goesInWork .wake s = false := rfl

@[simp] theorem takenIn_confirm (b : Byte) (volume : BitVec 32) (operator : BitVec 16) : takenIn (.confirm b volume operator) m = (m == .run) := rfl
@[simp] theorem requestCode_confirm (b : Byte) (volume : BitVec 32) (operator : BitVec 16) : requestCode (.confirm b volume operator) = some 0x07 := rfl
@[simp] theorem perform_confirm (b : Byte) (volume : BitVec 32) (operator : BitVec 16) : perform (.confirm b volume operator) s = doConfirm b volume operator s := rfl
@[simp] theorem goesInWork_confirm (b : Byte) (volume : BitVec 32) (operator : BitVec 16) :
    goesInWork (.confirm b volume operator) s = ((doConfirm b volume operator s).2.result == .accepted) := rfl

@[simp] theorem takenIn_manualId (b : Byte) (fleet : BitVec 16) : takenIn (.manualId b fleet) m = (m == .run) := rfl
@[simp] theorem requestCode_manualId (b : Byte) (fleet : BitVec 16) : requestCode (.manualId b fleet) = some 0x08 := rfl
@[simp] theorem perform_manualId (b : Byte) (fleet : BitVec 16) : perform (.manualId b fleet) s = doManualId b fleet s := rfl
@[simp] theorem goesInWork_manualId (b : Byte) (fleet : BitVec 16) : goesInWork (.manualId b fleet) s = false := rfl

@[simp] theorem takenIn_stop (b : Byte) : takenIn (.stop b) m = (m == .run || m == .halted) := rfl
@[simp] theorem requestCode_stop (b : Byte) : requestCode (.stop b) = some 0x09 := rfl
@[simp] theorem perform_stop (b : Byte) : perform (.stop b) s = doStop b s := rfl
@[simp] theorem goesInWork_stop (b : Byte) : goesInWork (.stop b) s = false := rfl

@[simp] theorem takenIn_restore (b : Byte) : takenIn (.restore b) m = (m == .run || m == .halted) := rfl
@[simp] theorem requestCode_restore (b : Byte) : requestCode (.restore b) = some 0x0A := rfl
@[simp] theorem perform_restore (b : Byte) : perform (.restore b) s = doRestore b s := rfl
@[simp] theorem goesInWork_restore (b : Byte) : goesInWork (.restore b) s = false := rfl

@[simp] theorem takenIn_setPrice (product : Byte) (price : BitVec 32) : takenIn (.setPrice product price) m = (m != .starting && m != .commission) := rfl
@[simp] theorem requestCode_setPrice (product : Byte) (price : BitVec 32) : requestCode (.setPrice product price) = some 0x0B := rfl
@[simp] theorem perform_setPrice (product : Byte) (price : BitVec 32) : perform (.setPrice product price) s = doSetPrice product price s := rfl
@[simp] theorem goesInWork_setPrice (product : Byte) (price : BitVec 32) : goesInWork (.setPrice product price) s = false := rfl

@[simp] theorem takenIn_holdPrices : takenIn .holdPrices m = (m != .starting && m != .commission) := rfl
@[simp] theorem requestCode_holdPrices : requestCode .holdPrices = some 0x0C := rfl
@[simp] theorem perform_holdPrices : perform .holdPrices s = doHoldPrices s := rfl
@[simp] theorem goesInWork_holdPrices : goesInWork .holdPrices s = false := rfl

@[simp] theorem takenIn_releasePrices : takenIn .releasePrices m = (m != .starting && m != .commission) := rfl
@[simp] theorem requestCode_releasePrices : requestCode .releasePrices = some 0x0D := rfl
@[simp] theorem perform_releasePrices : perform .releasePrices s = doReleasePrices s := rfl
@[simp] theorem goesInWork_releasePrices : goesInWork .releasePrices s = false := rfl

@[simp] theorem takenIn_void (seq : BitVec 32) : takenIn (.void seq) m = (m != .starting && m != .commission) := rfl
@[simp] theorem requestCode_void (seq : BitVec 32) : requestCode (.void seq) = some 0x0E := rfl
@[simp] theorem perform_void (seq : BitVec 32) : perform (.void seq) s = doVoid seq s := rfl
@[simp] theorem goesInWork_void (seq : BitVec 32) : goesInWork (.void seq) s = true := rfl

@[simp] theorem takenIn_readJournal (mode : Byte) (filter : Byte) (count : Byte) : takenIn (.readJournal mode filter count) m = (m != .starting) := rfl
@[simp] theorem requestCode_readJournal (mode : Byte) (filter : Byte) (count : Byte) : requestCode (.readJournal mode filter count) = some 0x0F := rfl
@[simp] theorem perform_readJournal (mode : Byte) (filter : Byte) (count : Byte) : perform (.readJournal mode filter count) s = doReadJournal mode filter count s := rfl
@[simp] theorem goesInWork_readJournal (mode : Byte) (filter : Byte) (count : Byte) : goesInWork (.readJournal mode filter count) s = true := rfl

@[simp] theorem takenIn_exportDone (seq : BitVec 32) : takenIn (.exportDone seq) m = (m != .starting) := rfl
@[simp] theorem requestCode_exportDone (seq : BitVec 32) : requestCode (.exportDone seq) = some 0x10 := rfl
@[simp] theorem perform_exportDone (seq : BitVec 32) : perform (.exportDone seq) s = doExportDone seq s := rfl
@[simp] theorem goesInWork_exportDone (seq : BitVec 32) : goesInWork (.exportDone seq) s = true := rfl

@[simp] theorem takenIn_stocktake (b : Byte) (volume : BitVec 32) : takenIn (.stocktake b volume) m = (m != .starting && m != .commission) := rfl
@[simp] theorem requestCode_stocktake (b : Byte) (volume : BitVec 32) : requestCode (.stocktake b volume) = some 0x11 := rfl
@[simp] theorem perform_stocktake (b : Byte) (volume : BitVec 32) : perform (.stocktake b volume) s = doStocktake b volume s := rfl
@[simp] theorem goesInWork_stocktake (b : Byte) (volume : BitVec 32) : goesInWork (.stocktake b volume) s = true := rfl

@[simp] theorem takenIn_purgeLink : takenIn .purgeLink m = (m != .starting && m != .commission) := rfl
@[simp] theorem requestCode_purgeLink : requestCode .purgeLink = some 0x12 := rfl
@[simp] theorem perform_purgeLink : perform .purgeLink s = doPurgeLink s := rfl
@[simp] theorem goesInWork_purgeLink : goesInWork .purgeLink s = false := rfl

@[simp] theorem takenIn_readPoint (b : Byte) : takenIn (.readPoint b) m = (m != .starting) := rfl
@[simp] theorem requestCode_readPoint (b : Byte) : requestCode (.readPoint b) = some 0x13 := rfl
@[simp] theorem perform_readPoint (b : Byte) : perform (.readPoint b) s = doReadPoint b s := rfl
@[simp] theorem goesInWork_readPoint (b : Byte) : goesInWork (.readPoint b) s = false := rfl

@[simp] theorem takenIn_readAccount (b : Byte) : takenIn (.readAccount b) m = (m != .starting && m != .commission) := rfl
@[simp] theorem requestCode_readAccount (b : Byte) : requestCode (.readAccount b) = some 0x14 := rfl
@[simp] theorem perform_readAccount (b : Byte) : perform (.readAccount b) s = doReadAccount b s := rfl
@[simp] theorem goesInWork_readAccount (b : Byte) : goesInWork (.readAccount b) s = false := rfl

@[simp] theorem takenIn_readStock : takenIn .readStock m = (m != .starting && m != .commission) := rfl
@[simp] theorem requestCode_readStock : requestCode .readStock = some 0x15 := rfl
@[simp] theorem perform_readStock : perform .readStock s = doReadStock s := rfl
@[simp] theorem goesInWork_readStock : goesInWork .readStock s = false := rfl

@[simp] theorem takenIn_readView (fleet : BitVec 16) : takenIn (.readView fleet) m = (m != .starting && m != .commission) := rfl
@[simp] theorem requestCode_readView (fleet : BitVec 16) : requestCode (.readView fleet) = some 0x16 := rfl
@[simp] theorem perform_readView (fleet : BitVec 16) : perform (.readView fleet) s = doReadView fleet s := rfl
@[simp] theorem goesInWork_readView (fleet : BitVec 16) : goesInWork (.readView fleet) s = false := rfl

@[simp] theorem takenIn_readPeers : takenIn .readPeers m = (m != .starting && m != .commission) := rfl
@[simp] theorem requestCode_readPeers : requestCode .readPeers = some 0x17 := rfl
@[simp] theorem perform_readPeers : perform .readPeers s = doReadPeers s := rfl
@[simp] theorem goesInWork_readPeers : goesInWork .readPeers s = false := rfl

@[simp] theorem takenIn_readLink : takenIn .readLink m = (m != .starting) := rfl
@[simp] theorem requestCode_readLink : requestCode .readLink = some 0x18 := rfl
@[simp] theorem perform_readLink : perform .readLink s = doReadLink s := rfl
@[simp] theorem goesInWork_readLink : goesInWork .readLink s = false := rfl

@[simp] theorem takenIn_readStatus : takenIn .readStatus m = (true) := rfl
@[simp] theorem requestCode_readStatus : requestCode .readStatus = some 0x19 := rfl
@[simp] theorem perform_readStatus : perform .readStatus s = doReadStatus s := rfl
@[simp] theorem goesInWork_readStatus : goesInWork .readStatus s = false := rfl

@[simp] theorem takenIn_readAttention : takenIn .readAttention m = (true) := rfl
@[simp] theorem requestCode_readAttention : requestCode .readAttention = some 0x1A := rfl
@[simp] theorem perform_readAttention : perform .readAttention s = doReadAttention s := rfl
@[simp] theorem goesInWork_readAttention : goesInWork .readAttention s = false := rfl

@[simp] theorem takenIn_readConditions : takenIn .readConditions m = (true) := rfl
@[simp] theorem requestCode_readConditions : requestCode .readConditions = some 0x1B := rfl
@[simp] theorem perform_readConditions : perform .readConditions s = doReadConditions s := rfl
@[simp] theorem goesInWork_readConditions : goesInWork .readConditions s = false := rfl

@[simp] theorem takenIn_readFaults : takenIn .readFaults m = (true) := rfl
@[simp] theorem requestCode_readFaults : requestCode .readFaults = some 0x1C := rfl
@[simp] theorem perform_readFaults : perform .readFaults s = doReadFaults s := rfl
@[simp] theorem goesInWork_readFaults : goesInWork .readFaults s = false := rfl

variable {s}

/-- A LOAD_IMAGE DATA of an allowed length is taken as any other request. -/
theorem takeLoadData_wellFormed (offset : BitVec 16) (bytes : List Byte)
    (h : Instr.wellFormed (.loadImageData offset bytes) = true) :
    takeLoadData offset bytes s = takeRequest (.loadImageData offset bytes) s := by
  have h' : dataOk bytes = true := h
  simp only [dataOk, Bool.and_eq_true, decide_eq_true_eq] at h'
  simp [takeLoadData, h']

/-- What a well-formed request other than RESET does: it is taken, and the outputs are driven. -/
theorem exec_request {i : Instr} (hr : isRequest i = true) (hw : i.wellFormed = true) :
    exec i s = .next (drive (takeRequest i s)) := by
  cases i with
  | loadImageData offset bytes =>
    show done (takeLoadData offset bytes s) = _
    rw [takeLoadData_wellFormed offset bytes hw, done]
  | _ => first | rfl | exact Bool.noConfusion hr

/-- What a well-formed request does in its mode while none is in work. -/
theorem exec_taken {i : Instr} (hr : isRequest i = true) (hw : i.wellFormed = true) (h : s.ready)
    (hm : takenIn i s.mode = true) : exec i s = .next (drive (workRequest i s)) := by
  rw [exec_request hr hw, takeRequest_ready h hm]

end Sys2Proof.Machine
end

