-- ==== Sys2Proof/Tests/Slice0.lean ====
section
/-! SUPPORT. Tests of the model against the manual's worked figures, and one witness for every statement
that has hypotheses: a concrete state and operands that meet them all. -/

namespace Sys2Proof.Tests

set_option Elab.async false

open Sys2Proof Sys2Proof.Machine

/-! ### A small controller: P1 delivers from C2, P4 fills C2 -/

/-- Machine 4117 of Table 1-6. -/
def machine : RosterRecord :=
  ⟨4117, 0x3C0A91005E227B10, 6, 0x02, some 1200000, some 1650000, false⟩

/-- P1, a delivery point on C2. -/
def deliveryPoint : PointParams := ⟨.delivery, 1, false, 5000, 500000, 0, 5, 10, 10, 20, 1, 4⟩

/-- P4, a receipt point on C2. -/
def receiptPoint : PointParams := { deliveryPoint with role := .receipt }

/-- The metering values of Table 3-4. -/
def meterValues : MeterParams := ⟨25000, 2100, 2400, 2450, #v[-8, 12, 20, 20]⟩

/-- The strapping table of Table 7-3. -/
def strapping : List (Nat × Nat) :=
  [(0, 0), (2000, 1450000), (8000, 7900000), (14000, 13600000), (16500, 14750000)]

/-- Compartment C2 of section 7.4.1. -/
def compartment : CompParams := ⟨2, 15000, 400, 30, 16000, 250, 900, 150, 9210000, strapping⟩

/-- The values in use of station 3. -/
def values : Params :=
  { Params.none with
    found := true, siteCode := 0x1234, stationId := 3, bays := 2, maxFill := 600, period := 600,
    gapReserve := 20000, gapCap := 100000, shiftStarts := [360, 1080],
    points := #v[deliveryPoint, PointParams.unused, PointParams.unused, receiptPoint],
    meters := #v[some meterValues, none, none, some meterValues],
    products := #v[⟨0, false⟩, ⟨84, true⟩, ⟨0, false⟩, ⟨0, false⟩, ⟨0, false⟩, ⟨0, false⟩, ⟨0, false⟩,
      ⟨0, false⟩],
    comps := #v[none, some compartment, none], roster := [machine], calibrationCount := 1 }

/-- A settled input. -/
def settled (v : Bool) : Debounce := ⟨some v, none, 0⟩

/-- The machine in RUN in shift 1,999 (section 6.5.1), every nozzle holstered, but P1's lifted. -/
def running : State :=
  { State.reset with
    mode := .run, params := values,
    scanner := ⟨#v[settled true, settled false, settled false, settled true], settled true,
      settled false, settled false⟩,
    peers := { PeerUnit.reset with siteTime := some 86412300, shift := some 1999 },
    stock := { State.reset.stock with
      comps := #v[Comp.reset, { Comp.reset with book := 9210000, quiet := some 0 }, Comp.reset] },
    metrology := { Metrology.reset with status := .good, timer := some 3600 } }

/-- The same in another mode. -/
def inMode (m : Mode) : State := { running with mode := m }

/-- P1 in a state with a context. -/
def p1 (x : PointState) (t : PointTimers) (c : FillContext) (s : State) : State :=
  s.setPoint 0 { Point.reset with state := x, timers := t, ctx := c }

/-- P4 in a state with a context. -/
def p4 (x : PointState) (t : PointTimers) (c : FillContext) (s : State) : State :=
  s.setPoint 3 { Point.reset with state := x, timers := t, ctx := c }

/-- Every timer running. -/
def allTimers : PointTimers := ⟨true, true, true, true, true, true⟩

/-- The context of a delivery to machine 4117 by tag, its record in slot 0. -/
def deliveryContext : FillContext :=
  { FillContext.empty with
    machine := some machine, tag := some machine.tag, preset := some 19500, price := some 1895,
    slot := some 0, seq := some 1, endReason := some .preset }

/-- The fill record of section 3.11 at opening. -/
def fillRecord : FillRecord :=
  { timeClosed := none, point := 0, compartment := 1, product := 2, fleet := some 4117,
    account := some 6, price := some 1895, operator := 7, manual := false, uncompensated := false,
    backflow := false, overrun := false, disputed := false, endReason := none, preset := 19500,
    gross := 0, net := 0, tm := 0, cost := none, calibrationCount := 1,
    areaA := ⟨true, Checkpoint.zero⟩, areaB := ⟨true, Checkpoint.zero⟩ }

/-- A record of shift 1,999. -/
def record (seq : Nat) (closed : Bool) (b : RecordBody) : Record :=
  ⟨seq, closed, false, false, some 3, 1, some 1999, some 86412300, b⟩

/-- The ring with these records from slot 0 on. -/
def withRing (rs : List Record) (s : State) : State :=
  { s with
    rm := { s.rm with slots := rs.mapIdx (fun i r => (i, ⟨true, r⟩)) }
    journal := { s.journal with held := rs.length, nextSeq := rs.length + 1 } }

/-- A state whose link holds something. -/
def withLink (f : Link → Link) (s : State) : State := { s with link := f s.link }

/-- The state that a command leaves. -/
def after (i : Instr) (s : State) : State :=
  match exec i s with
  | .next t => t
  | _ => s

/-! ### Well-formedness: one term that each check refuses -/

theorem test_empty_data_refused : (Instr.loadImageData 0 []).wellFormed = false := by decide
theorem test_long_data_refused :
    (Instr.loadImageData 0 (List.replicate 201 0)).wellFormed = false := by decide +kernel
theorem test_whole_second_refused : (Instr.closeSettleExpiry 0 1000 .absent).wellFormed = false := by
  decide
theorem test_station_refused : (Instr.peerSilent 33).wellFormed = false := by decide
theorem test_fleet_refused : (Instr.holdExpiry 1 0).wellFormed = false := by decide
theorem test_cells_refused : (Instr.metrologyCheckComplete [(32768, 1)] 0).wellFormed = false := by
  decide

/-! ### Layouts -/

/-- "123456789" in bytes. -/
def digits : List Byte := [0x31, 0x32, 0x33, 0x34, 0x35, 0x36, 0x37, 0x38, 0x39]

/-- The check value of R189. -/
theorem test_crc16 : crc16 digits = 0x29B1 := by decide +kernel
/-- The check value of R190. -/
theorem test_crc32 : crc32 digits = 0xCBF43926 := by decide +kernel
/-- A CONFIRM frame written out from Table 11-9: P1, 500,000 mL, operator 7. -/
theorem test_confirm_frame :
    parseRequest [0x07, 0, 7, 0x01, 0x00, 0x07, 0xA1, 0x20, 0x00, 0x07] =
      some (.confirm 1 500000 7) := by decide
/-- A LOAD_IMAGE DATA frame written out from Table 11-9. -/
theorem test_load_frame :
    parseRequest [0x01, 0, 5, 0x02, 0x00, 0xC8, 0xAB, 0xCD] = some (.loadImageData 200 [0xAB, 0xCD]) := by
  decide
/-- A body one byte short is malformed (R177). -/
theorem test_short_frame : parseRequest [0x03, 0, 3, 1, 2, 3] = none := by decide
/-- A CLOSE written out from Tables 11-1 and 11-2: site 1234h, station 3, epoch 5, sequence 16. -/
theorem test_close_bulletin :
    parseFrame [0x12, 0x34, 3, 0x52, 16, 0, 0, 0x07, 0xCF, 11, 0x10, 0x15, 0, 0x0B, 0xE6, 0xE0,
      0, 0x04, 0x93, 0xE0, 2] =
      some ⟨0x1234, 3, 5, 16, 1999, .closeFill 4117 780000 300000 2⟩ := by decide +kernel

/-! ### Worked figures -/

/-- Table 1-2: the sample at 40 ms, the third of its run, reports LIFTED; the bounce ended the run. -/
theorem test_table_1_2 :
    ([true, false, true, true, true, true].foldl
      (fun (d : Debounce × List (Option SwitchEvent)) v =>
        ((d.1.sample 3 v).1, d.2 ++ [(d.1.sample 3 v).2])) (settled false, [])).2 =
      [none, none, none, none, some (.change true), none] := by decide

/-- Table 3-3: eight edges with a fault limit of 2. -/
theorem test_table_3_3 :
    ([MeterLine.a, .b, .b, .b, .a, .b, .a, .b].foldl
      (fun (m : Channel × List (Int × Nat × Nat)) e =>
        let x := (judgeEdge 2 e (m.1.count (togglePhase m.1.phase e))).1
        (x, m.2 ++ [(x.live, x.cleanRun, x.faults)]))
      ({ Channel.reset 2 with phase := 2, lastEdge := some .b }, [])).2 =
      [(0, 1, 0), (1, 2, 0), (0, 0, 1), (1, 0, 2), (1, 1, 2), (1, 2, 2), (1, 3, 2), (2, 0, 0)] := by
  decide +kernel

/-- Section 3.11.1: the targets at opening. -/
theorem test_opening_target : targetOf 19500 0 0 1000000 (-8) 25000 = 4879 := by decide +kernel
/-- Section 3.11.2: the targets after intervals 1 and 2. -/
theorem test_interval_targets :
    targetOf 19500 19984000 2000 986392 (-8) 25000 = 4947 ∧
      targetOf 19500 45034000 4500 986140 20 25000 = 4940 ∧
      targetOf 19500 50030000 5000 986056 (-8) 25000 = 5000 := by decide +kernel

/-- The channel of section 3.11 before the end of interval 2. -/
def interval2 : Channel :=
  { Channel.reset 0 with
    counting := true, live := 4500, interval := 2500, elapsed := 1, c := 19984000, w := 624000,
    rpos := 2000 }

/-- Section 3.11.2: the channel after interval 2. -/
theorem test_interval_2 :
    (let m := running.intervalFigures 0 1000 (.tenths 318) interval2
     (m.c, m.w, m.rpos, m.tm, m.gross, m.net, m.lastBand)) =
      (45034000, 1419000, 4500, 315, 18013, 17763, 3) := by decide +kernel

/-- Section 3.11.2: the cost and OVERRUN at the close; the figures of section 8.8. -/
theorem test_cost :
    costOf 19733 1895 = 3739 ∧ overrunOf 19733 19500 = true ∧ costOf 300000 1895 = 56850 ∧
      costOf 500106 1895 = 94770 := by decide +kernel

/-- Section 4.7: the preset of machine 4117 at P2 of station 3 is cut to 60,000 mL. -/
theorem test_section_4_7 :
    ({ running with
      peers := { running.peers with
        table := running.peers.table.set 6 { Peer.reset with state := .active, g := 2 } }
      allowance := { running.allowance with
        own := [(4117, 300000)]
        contributions := [⟨7, 4117, 400000⟩, ⟨12, 4117, 150000⟩]
        holds := [⟨12, 4117, 250000, 86412940⟩] } } : State).presetOf 0 machine 500000 = 60000 := by
  decide +kernel

/-- Section 6.5.1: shifts 1,999 and 2,000. -/
theorem test_section_6_5_1 :
    clockShift [360, 1080] 86412300 = 1999 ∧ clockShift [360, 1080] 86421600 = 2000 := by
  decide +kernel

/-- Section 7.2.1: strapped volumes of C2. -/
theorem test_section_7_2_1 :
    strapped strapping 9137 = 8980150 ∧ strapped strapping 551 = 399475 ∧
      strapped strapping 17200 = 14750000 := by decide +kernel

/-- P1's delivery of section 7.4.1 under way, C2's probe VALID. -/
def stockExample : State :=
  { running with
    stock := { running.stock with
      comps := running.stock.comps.set 1
        { running.comp 1 with probe := .valid, level := some 9137, volume := some 8980150 } }
    meters := running.meters.set 0 { running.meter 0 with net := 312400 }
    allowance := { running.allowance with openPresets := [⟨0, 4117, 1000000⟩] } }

/-- Section 7.4.1: available stock and space of C2. -/
theorem test_section_7_4_1 :
    stockExample.available 1 = 7892550 ∧ stockExample.space 1 = 5340000 := by decide +kernel

/-- Section 1.3.1: machine 4117 is found for product 2; fleet number 9999 is UNKNOWN_TAG. -/
theorem test_section_1_3_1 :
    lookupOutcome running 0 (running.machineByFleet 4117) = .ok machine ∧
      lookupOutcome running 0 (running.machineByFleet 9999) = .error .unknownTag := ⟨rfl, rfl⟩

/-! ### Decoding over the table's bits: no row gives any -/

theorem test_no_word (n w : Nat) : decodeTableWord n w = none := rfl
theorem test_no_fetch (n w : Nat) : State.reset.withFetchWord n w = State.reset := rfl

/-! ### Witnesses for the statements: the block as a whole -/

theorem witness_StepTakesTheFrontCommand : State.reset.pending = [] := rfl

/-- P1 in FLOWING with its valve at the full stage. -/
def flowing : State :=
  running.setPoint 0 { Point.reset with state := .flowing, valve := .full, ctx := deliveryContext }

theorem witness_ValvesFollowTheConditions :
    ValvesDriven flowing ∧ ∃ t, step { flowing with pending := [.stop 1] } = .next t := by
  refine ⟨fun p => ?_, _, rfl⟩
  match p with
  | 0 | 1 | 2 | 3 => decide

theorem witness_AttentionOutputShowsPendingCauses : ∃ t, exec .readStock running = .next t := ⟨_, rfl⟩

theorem witness_RecordMemoryStaysCanonical :
    (withRing [record 1 true (.void 9)] running).rm.wf = true ∧
      ∃ t, step (withRing [record 1 true (.void 9)] running) = .next t := ⟨by decide, _, rfl⟩

theorem witness_CollectionsStayWithinCapacity :
    running.rm.wf = true ∧ Bounded running ∧ ∃ t, step running = .next t :=
  ⟨by decide, ⟨by decide, by decide, by decide, by decide, by decide,
    fun _ _ h => (by cases h), by decide, by decide, by decide⟩, _, rfl⟩

/-- A request in work in a mode. -/
def working (i : Instr) (m : Mode) : State :=
  { inMode m with port := { (inMode m).port with inWork := some i, takenCal := some true } }

/-- A LOAD_IMAGE END, a READ_JOURNAL or a CONFIRM can be in work in any mode. -/
theorem work_fits (m : Mode) :
    WorkFits (working .loadImageEnd m) ∧ WorkFits (working (.readJournal 1 0 4) m) ∧
      WorkFits (working (.confirm 1 500000 7) m) :=
  ⟨⟨fun _ h => by cases h; exact ⟨rfl, fun h => nomatch h⟩, fun h => nomatch h⟩,
    ⟨fun _ h => by cases h; exact ⟨rfl, fun h => nomatch h⟩, fun h => nomatch h⟩,
    ⟨fun _ h => by cases h; exact ⟨rfl, fun h => nomatch h⟩, fun h => nomatch h⟩⟩

theorem witness_HaltedAndCommissionEndOnlyByReset (m : Mode) (h : m = .halted ∨ m = .commission) :
    ((working .loadImageEnd m).mode = .halted ∨ (working .loadImageEnd m).mode = .commission) ∧
      WorkFits (working .loadImageEnd m) ∧ resetsMachine .requestComplete = false ∧
      (∃ t, exec .requestComplete (working .loadImageEnd m) = .next t) ∧
      ∃ t, step (working .loadImageEnd m) = .next t :=
  ⟨h, (work_fits m).1, rfl, ⟨_, rfl⟩, _, rfl⟩

theorem witness_ShiftNumberNeverDecreases :
    (working (.readJournal 1 0 4) .run).started = true ∧ WorkFits (working (.readJournal 1 0 4) .run) ∧
      resetsMachine .requestComplete = false ∧
      ∃ t, exec .requestComplete (working (.readJournal 1 0 4) .run) = .next t :=
  ⟨rfl, (work_fits .run).2.1, rfl, _, rfl⟩

/-! ### Witnesses: frames -/

theorem witness_FramesReadBack_requests :
    (Instr.confirm 1 500000 7).wellFormed = true ∧
      requestFrame (.confirm 1 500000 7) =
        some [0x07, 0, 7, 0x01, 0x00, 0x07, 0xA1, 0x20, 0x00, 0x07] := by decide

/-- A bulletin at the top of its ranges. -/
def topBulletin (b : BulletinBody) : Bulletin := ⟨65535, 32, 15, 255, 4294967295, b⟩

theorem witness_FramesReadBack_bulletins :
    (topBulletin (.openFill 65535 4294967295 65535 255)).fits ∧
      (topBulletin (.closeFill 65535 4294967295 4294967295 255)).fits ∧
      (topBulletin (.tally 255 13 14 (some 65534) (List.replicate 39 (65535, 4294967295)))).fits ∧
      (topBulletin (.tally 0 0 1 none [])).fits ∧ (topBulletin (.bayAsk 65535)).fits ∧
      (topBulletin .bayDone).fits := by
  simp [topBulletin, Bulletin.fits]

/-! ### Witnesses: power, reset, recovery -/

theorem witness_PowerOnAndResetStartTheMachine : running.powered = true := rfl

theorem witness_PowerLossKeepsRecordMemory :
    running.powered = true ∧ running.writesInProgress = false := by decide

/-- The machine unpowered, with a ring of slots: two held records, a third that was released. -/
def unpowered (slots : List (Nat × Slot)) : State :=
  { State.reset with powered := false, rm := { State.reset.rm with slots := slots } }

theorem witness_StartingScansTheRingAndRebuildsTheBooks :
    let s := unpowered [(0, ⟨true, record 5 true (.void 4)⟩), (4095, ⟨true, record 4 true (.stocktake 1 9)⟩)]
    s.powered = false ∧ s.rm.wf = true ∧
      ∀ (k : Nat) (x : Slot), slotAt s.rm.slots k = some x → k < 4096 := by
  refine ⟨rfl, by decide, fun k x h => ?_⟩
  simp only [unpowered, slotAt] at h
  split at h
  · omega
  · split at h
    · omega
    · cases h

/-- No slot held: none ever used, and one released. -/
theorem witness_StartingScansTheRing_empty :
    (unpowered []).powered = false ∧ (unpowered []).rm.slots = [] ∧
      (let s := unpowered [(4095, ⟨false, record 5 true (.void 4)⟩)]
       slotAt s.rm.slots 4095 = some ⟨false, record 5 true (.void 4)⟩ ∧ s.rm.wf = true) :=
  ⟨rfl, rfl, rfl, by decide⟩

/-- R149: the run wraps round the end of the ring and ends at the highest seq, the released slot counts
for the next seq, and the record the VOID names is marked. -/
theorem test_ring_scan :
    (let s := after .powerOn (unpowered
      [(0, ⟨true, record 5 true (.void 4)⟩), (1, ⟨false, record 8 true (.void 4)⟩),
       (4095, ⟨true, record 4 true (.stocktake 1 9)⟩)])
     (s.journal.oldest, s.journal.held, s.journal.nextSeq, s.ring.map (fun x => x.2.voided))) =
      (4095, 2, 9, [true, false]) := by decide +kernel

theorem witness_RecoveryCompletesAnOpenFill (receipt : Bool) :
    (record 1 false (.fill receipt fillRecord)).body = .fill receipt fillRecord ∧
      values.meters[fillRecord.point] = some meterValues ∧ fillRecord.product = (1 : Fin 8).val + 1 :=
  ⟨rfl, rfl, rfl⟩

/-! ### Witnesses: the Terminal Port -/

theorem waits_of {s : State} {p : PointId} (h : s.switchAt p ≠ some false) : s.waits p := h

theorem running_ready : running.ready := ⟨rfl, rfl⟩

theorem witness_RejectedRequestsChangeNothing :
    (running.ready ∧ parseRequest [0x09, 0, 0] = none) ∧
    Instr.start.wellFormed = true ∧ isRequest .start = true ∧
      requestCode .start = some 0x04 ∧ takenIn .start running.mode = false :=
  ⟨⟨running_ready, by decide⟩, rfl, by decide, rfl, rfl⟩

theorem witness_ExchangesBringRequests :
    ((working .start .standby).powered = true ∧ (working .start .standby).port.inWork = some .start ∧
      parseRequest [0x1A, 0, 0] ≠ some .reset ∧ parseRequest [0x1D, 0, 0] = some .reset) ∧
    ((inMode .standby).ready ∧ Instr.start.wellFormed = true ∧
      requestFrame .start = some [0x04, 0, 0] ∧ takenIn .start (inMode .standby).mode = true ∧
      goesInWork .start (sendResponse (inMode .standby)) = true) :=
  ⟨⟨rfl, rfl, by decide, by decide⟩, ⟨rfl, rfl⟩, rfl, by decide, rfl, rfl⟩

theorem witness_ExchangesBringRequests_carried :
    running.ready ∧ Instr.readStatus.wellFormed = true ∧ isRequest .readStatus = true ∧
      requestFrame .readStatus = some [0x19, 0, 0] ∧
      goesInWork .readStatus (sendResponse running) = false :=
  ⟨running_ready, rfl, by decide, by decide, rfl⟩

/-- A record memory request outside its modes. -/
theorem witness_ExchangesBringRequests_wrongMode :
    running.ready ∧ Instr.start.wellFormed = true ∧ isRequest .start = true ∧
      requestFrame .start = some [0x04, 0, 0] ∧ requestCode .start = some 0x04 ∧
      takenIn .start running.mode = false ∧ mayBeInWork .start = true :=
  ⟨running_ready, rfl, by decide, by decide, rfl, rfl, rfl⟩

theorem witness_RequestCompleteFinishesTheRequest :
    ((working .start .standby).powered = true ∧ (working .start .standby).port.inWork = some .start ∧
      Instr.start.wellFormed = true ∧ isRequest .start = true ∧
      takenIn .start (working .start .standby).mode = true) ∧
    ((working .loadImageEnd .commission).powered = true ∧
      (working .loadImageEnd .commission).port.inWork = some .loadImageEnd ∧
      (working .loadImageEnd .commission).mode = .commission) ∧
    ((working (.confirm 1 500000 7) .halted).port.inWork = some (.confirm 1 500000 7) ∧
      (working (.confirm 1 500000 7) .halted).mode ≠ .run ∧ pointOf 1 = some 0 ∧
      (working (.confirm 1 500000 7) .halted).role 0 ≠ .unused ∧
      ((working (.confirm 1 500000 7) .halted).point 0).state ≠ .offered) :=
  ⟨⟨rfl, rfl, rfl, by decide, rfl⟩, ⟨rfl, rfl, rfl⟩, rfl, (by decide : Mode.halted ≠ .run), rfl,
    (by decide : Role.delivery ≠ .unused), (by decide : PointState.idle ≠ .offered)⟩

/-! ### Witnesses: loading an image -/

/-- An image of 631 bytes: no point in use, C2 with a table of two points, no roster record. -/
def image : List Host.Cell :=
  [(0, 2), (1, 119), (2, 1), (3, 127), (5, 232), (6, 129), (7, 42), (8, 176), (9, 113), (10, 122),
    (11, 82), (12, 99), (13, 20), (205, 2), (212, 64), (213, 116), (215, 225), (216, 17), (217, 48)] ++
  [(399, 18), (400, 52), (401, 3), (412, 1), (581, 1), (582, 2), (585, 58), (586, 152), (597, 3),
    (598, 132), (602, 140), (603, 136), (604, 144)]

/-- That image staged in area A, as many bytes received as given, CAL as given. -/
def staged (received : Nat) (cal : Option Bool) : State :=
  { inMode .commission with
    metrology := { (inMode .commission).metrology with load := some ⟨631, received⟩, cal := cal }
    rm := { (inMode .commission).rm with areaA := image } }

theorem witness_LoadedBytesAreStaged :
    ((inMode .commission).ready ∧ (inMode .commission).mode = .commission ∧
      64 ≤ (64 : BitVec 16).toNat ∧ (32768 : BitVec 16).toNat ≤ 32768) ∧
    ((staged 400 none).ready ∧ (staged 400 none).mode = .commission ∧
      1 ≤ [(0xAB : Byte)].length ∧ (List.replicate 200 (0xAB : Byte)).length ≤ 200 ∧
      (staged 400 none).metrology.load = some ⟨631, 400⟩ ∧ (staged 400 none).rm.wf = true ∧
      ((400 : BitVec 16).toNat = 400 ∧ 400 + 200 ≤ 631) ∧ ¬ (401 : BitVec 16).toNat = 400) :=
  ⟨⟨⟨rfl, rfl⟩, rfl, by decide, by decide⟩, ⟨rfl, rfl⟩, rfl, by decide, by decide +kernel, rfl,
    by decide +kernel, by decide, by decide⟩

set_option maxRecDepth 100000 in
/-- The image is sound: both sections give their codes. -/
theorem staged_sound : (staged 631 none).rm.stagedFault = none := by decide +kernel

set_option maxRecDepth 100000 in
/-- POWER_ON and RESET with an image found in area A. -/
theorem witness_PowerOnAndResetStartTheMachine_image :
    ({ (staged 631 none).rm with selector := some .a } : RecordMemory).image = some image := by
  decide +kernel

set_option maxRecDepth 100000 in
/-- R4: a LOAD_IMAGE END in work is decided by the CAL value taken with it; CAL has opened since. -/
theorem test_taken_cal :
    (let s := staged 631 (some false)
     (after .requestComplete { s with
       port := { s.port with inWork := some .loadImageEnd, takenCal := some true } }).port.response.result,
     (after .loadImageEnd (staged 631 (some false))).port.response.result) = (.accepted, .locked) := by
  decide +kernel

theorem witness_LoadEndDecidesByTheSwitch :
    ((staged 630 none).ready ∧ (staged 630 none).mode = .commission ∧
      (staged 630 none).metrology.load = some ⟨631, 630⟩ ∧ 630 < 631) ∧
    (let bad : State := { staged 631 none with rm := { (staged 631 none).rm with areaA := [] } }
     bad.ready ∧ bad.metrology.load = some ⟨631, 631⟩ ∧ bad.rm.stagedFault = some 0) ∧
    ((staged 631 none).ready ∧ (staged 631 none).mode = .commission ∧
      (staged 631 none).metrology.load = some ⟨631, 631⟩ ∧ (staged 631 none).rm.wf = true ∧
      (staged 631 none).rm.stagedFault = none ∧ (staged 631 none).rm.calibrates = true ∧
      (staged 631 none).metrology.cal ≠ some true) ∧
    (staged 631 (some true)).metrology.cal = some true :=
  ⟨⟨⟨rfl, rfl⟩, rfl, rfl, by decide⟩, ⟨⟨rfl, rfl⟩, rfl, by decide +kernel⟩,
    ⟨⟨rfl, rfl⟩, rfl, rfl, by decide +kernel, staged_sound, rfl, by decide⟩, rfl⟩

/-! ### Witnesses: modes, time, parking -/

/-- STANDBY with the site time not set. -/
def noTime : State := { inMode .standby with peers := PeerUnit.reset }

theorem witness_StandbyTakesCommissionAndTheTime :
    ((inMode .standby).ready ∧ (inMode .standby).mode = .standby ∧
      (inMode .standby).peers.siteTime = some 86412300 ∧ (inMode .standby).metrology.checking = false) ∧
    (noTime.ready ∧ noTime.mode = .standby ∧ noTime.peers.siteTime = none) :=
  ⟨⟨⟨rfl, rfl⟩, rfl, rfl, rfl⟩, ⟨rfl, rfl⟩, rfl, rfl⟩

/-- STANDBY before START, P1's nozzle lifted and P4's coupling closed, a delivery recovered, and what the
probe of C2 gives. -/
def starting (reading : ProbeReading) : State :=
  let s := withRing [record 1 true (.fill false fillRecord)] (inMode .standby)
  { s with
    stock := { s.stock with probeLines := #v[.missing, reading, .missing] }
    metrology := { s.metrology with recovery := [1], startCode := some 7 } }

/-- R129, R42: the first sample is taken at START, so a coupling closed on a full compartment is refused. -/
theorem test_start_probe :
    ((after .start (starting (.level 16000))).point 3).ctx.refusal = some .full ∧
      ((after .start (starting .missing)).point 3).ctx.offer = some 5340000 ∧
      ((after .start (starting .missing)).point 0).state = .ident := by decide +kernel

theorem witness_StartEntersRun (reading : ProbeReading) :
    ((starting reading).ready ∧ (starting reading).mode = .standby ∧
      (starting reading).peers.siteTime = some 86412300 ∧
      (starting reading).metrology.checking = false) ∧
    ((starting reading).link.queue = [] ∧ (starting reading).peers.round = none ∧
      (starting reading).peers.tallyTimer = false ∧ (starting reading).metrology.recovery.length ≤ 4 ∧
      ((starting reading).ring.map (fun x => x.2.seq)).Nodup) ∧
    (starting reading).cp 1 = some compartment ∧
    (∀ p ∈ [(0 : PointId), 3], ((starting reading).point p).state = .idle ∧
      (starting reading).switchAt p = some true) ∧
    (starting reading).role 0 = .delivery ∧ (starting reading).role 3 = .receipt :=
  ⟨⟨⟨rfl, rfl⟩, rfl, rfl, rfl⟩, ⟨rfl, rfl, rfl, (by decide : 1 ≤ 4), (by decide : [1].Nodup)⟩, rfl,
    by simp only [List.forall_mem_cons]; exact ⟨⟨rfl, rfl⟩, ⟨rfl, rfl⟩, nofun⟩, rfl, rfl⟩

theorem witness_ParkWaitsForEveryPoint :
    running.ready ∧ running.mode = .run ∧ ((16 : Byte) ≠ 0xFF ∧ (16 : Byte).toNat > 15) ∧
      ¬ ((15 : Byte) ≠ 0xFF ∧ (15 : Byte).toNat > 15) ∧ running.allIdle = true ∧
      flowing.ready ∧ flowing.mode = .run ∧ flowing.allIdle = false :=
  ⟨running_ready, rfl, by decide, by decide, by decide, ⟨rfl, rfl⟩, rfl, by decide⟩

/-- A delivery in FLOWING with a park pending. -/
def parkWaits : State := { flowing with port := { flowing.port with parkPending := true } }

theorem witness_WakeReturnsToRun :
    ((inMode .parked).ready ∧ (inMode .parked).mode = .parked) ∧
    (parkWaits.ready ∧ parkWaits.mode = .run ∧ parkWaits.port.parkPending = true) ∧
    (running.ready ∧ running.mode = .run ∧ running.port.parkPending = false) :=
  ⟨⟨⟨rfl, rfl⟩, rfl⟩, ⟨⟨rfl, rfl⟩, rfl, rfl⟩, running_ready, rfl, rfl⟩

/-- PARKED, P1 IDLE, its nozzle settled as holstered and once sampled as lifted, its wake enable as
given; P4's coupling was closed meanwhile. -/
def parkedSwitch (enable : Bool) : State :=
  let s := inMode .parked
  { s with
    scanner := { s.scanner with points := s.scanner.points.set 0 ⟨some false, some true, 1⟩ }
    port := { s.port with wakeEnables := s.port.wakeEnables.set 0 enable } }

theorem witness_WakeReturnsToRun_switch :
    ∀ enable : Bool, (parkedSwitch enable).powered = true ∧ (parkedSwitch enable).mode = .parked ∧
      (parkedSwitch enable).scanner.reports (parkedSwitch enable).runNeeded
        ⟨#v[true, false, false, true], true, false, false⟩ = [.point 0 (.change true)] ∧
      (parkedSwitch enable).port.wakeEnables[(0 : PointId)] = enable ∧
      ((parkedSwitch enable).point 0).state = .idle :=
  fun enable => by cases enable <;> exact ⟨rfl, rfl, rfl, rfl, rfl⟩

/-- R187, R186, R21, R42: an enabled switch wakes the machine, and the lift and the coupling closed while
PARKED are taken; one not enabled leaves it PARKED. -/
theorem test_switch_wake :
    (let t := after (.switchSample ⟨#v[true, false, false, true], true, false, false⟩) (parkedSwitch true)
     (t.mode, t.port.wakeReason, (t.point 0).state, (t.point 3).ctx.offer)) =
        (.run, some (.switch 0), .ident, some 5340000) ∧
      (after (.switchSample ⟨#v[true, false, false, true], true, false, false⟩) (parkedSwitch false)).mode =
        .parked := by decide +kernel

/-! ### Witnesses: points and their requests -/

/-- P1 with an offer to a machine. -/
def offeredTo (m : RosterRecord) : State :=
  p1 .offered { PointTimers.stopped with confirm := true }
    { FillContext.empty with machine := some m, manual := true, offer := some 500000 } running

/-- P1 with an offer to machine 4117. -/
def offered : State := offeredTo machine

/-- Machine 4117 with an allowance below the minimum fill. -/
def spent : RosterRecord := { machine with allowance := some 4999 }

/-- Machine 4117 with a tank below the minimum fill. -/
def small : RosterRecord := { machine with tank := some 4999 }

/-- P4 receiving into C2. -/
def receiving (s : State) : State := s.setPoint 3 { Point.reset with state := .flowing }

/-- Four appendable slots. -/
def journalFull (s : State) : State := { s with journal := { s.journal with setAside := 4092 } }

/-- C2 with a book stock, its probe VALID at a level. -/
def withStock (book : Int) (level : Nat) (s : State) : State :=
  { s with
    stock := { s.stock with
      comps := s.stock.comps.set 1
        { s.comp 1 with book := book, probe := .valid, level := some level } } }

/-- P1 with the first refusal of an offer to a machine. -/
abbrev Refuses (s : State) (m : RosterRecord) (r : RefusalReason) : Prop :=
  s.switchAt 0 ≠ some false ∧ s.firstRefusal 0 m 500000 = some r

/-- The roster of a state replaced. -/
def roster (rs : List RosterRecord) (s : State) : State :=
  { s with params := { s.params with roster := rs } }

/-- P4 with an offer. -/
def receiptOffered : State :=
  p4 .offered { PointTimers.stopped with confirm := true }
    { FillContext.empty with offer := some 5340000 } running

theorem witness_ConfirmOpensAFill :
    (offered.ready ∧ offered.mode = .run ∧ pointOf 1 = some 0 ∧ offered.role 0 = .delivery ∧
      (offered.point 0).state = .offered ∧ (offered.point 0).ctx.machine = some machine ∧
      offered.receiptOpen (offered.compartmentOf 0) = false ∧ offered.freeSlots > 4 ∧
      offered.presetOf 0 machine (max (500000 : BitVec 32).toNat (offered.pp 0).minFill) = 500000 ∧
      (offered.pp 0).minFill ≤ 500000) ∧
    (receiptOffered.ready ∧ receiptOffered.mode = .run ∧ pointOf 4 = some 3 ∧
      receiptOffered.role 3 = .receipt ∧ (receiptOffered.point 3).state = .offered ∧
      receiptOffered.receiptOpen (receiptOffered.compartmentOf 3) = false ∧
      receiptOffered.freeSlots > 4 ∧ receiptOffered.probeFull (receiptOffered.compartmentOf 3) = false ∧
      min (min (max (6000000 : BitVec 32).toNat (receiptOffered.pp 3).minFill)
        (receiptOffered.space (receiptOffered.compartmentOf 3))) 20000000 = 5340000 ∧
      (receiptOffered.pp 3).minFill ≤ 5340000) :=
  ⟨⟨⟨rfl, rfl⟩, rfl, rfl, rfl, rfl, rfl, rfl, by decide +kernel, by decide +kernel, by decide⟩,
    ⟨rfl, rfl⟩, rfl, rfl, rfl, rfl, rfl, by decide +kernel, by decide +kernel, by decide +kernel,
    by decide⟩

theorem witness_ConfirmOpensAFill_refused :
    (Refuses (receiving offered) machine .compartmentBusy ∧
      Refuses (journalFull offered) machine .journalFull ∧
      Refuses (offeredTo spent) spent .noAllowance ∧ Refuses (offeredTo small) small .tankCapacity ∧
      Refuses (withStock 404999 900 offered) machine .noStock) ∧
    (receiptOffered.waits 3 ∧
      (journalFull receiptOffered).firstReceiptRefusal 3 6000000 = some .journalFull ∧
      (withStock 9210000 16000 receiptOffered).firstReceiptRefusal 3 6000000 = some .full ∧
      (withStock 14545001 15000 receiptOffered).firstReceiptRefusal 3 6000000 = some .noSpace) ∧
    (pointOf 2 = some 1 ∧ running.role 1 = .unused) ∧
    pointOf 1 = some 0 ∧ (running.point 0).state ≠ .offered :=
  ⟨by decide +kernel, ⟨waits_of (by decide), by decide +kernel⟩, ⟨rfl, rfl⟩, rfl,
    (by decide : PointState.idle ≠ .offered)⟩

/-- A full transmit queue, its third bulletin a TALLY part; each stamp is the place in the order of
queueing. -/
def fullLink (s : State) : State :=
  withLink (fun l => { l with
    tx := .quiet
    queue := (List.range 8).map (fun i => ⟨⟨0x1234, 3, 1, i, 1999,
      if i = 2 then .tally 0 0 1 none [] else .bayDone⟩, 0, false, i⟩)
    nextSeq := 8 }) s

theorem witness_ConfirmOpensAFill_full :
    (fullLink offered).peers.round = none ∧ (fullLink offered).link.queue.length = 8 ∧
      (fullLink offered).link.tx ≠ .off ∧ (fullLink offered).link.tx ≠ .idle ∧
      (∀ x ∈ (fullLink offered).link.queue.tail.head?, x.busy < 7) ∧
      (fullLink offered).ready ∧ ((fullLink offered).point 0).state = .offered ∧
      (fullLink offered).freeSlots > 4 ∧ (fullLink offered).presetOf 0 machine 500000 = 500000 :=
  ⟨rfl, by decide, (by decide : TxState.quiet ≠ .off), (by decide : TxState.quiet ≠ .idle), by decide,
    ⟨rfl, rfl⟩, rfl, by decide +kernel, by decide +kernel⟩

/-- A full queue whose third bulletin is the part of the round in progress that was queued last. -/
def fullRound (parts : Nat) : State :=
  { fullLink offered with
    peers := { offered.peers with round := some ⟨0, [4117], parts, 1, false⟩ } }

theorem witness_ConfirmOpensAFill_round :
    (∃ v ∈ (fullRound 2).link.queue, (fullRound 2).partOfRound v.bulletin ⟨0, [4117], 2, 1, false⟩) ∧
      ∃ v ∈ (fullRound 1).link.queue, (fullRound 1).partOfRound v.bulletin ⟨0, [4117], 1, 1, false⟩ := by
  refine ⟨⟨⟨⟨0x1234, 3, 1, 2, 1999, .tally 0 0 1 none []⟩, 0, false, 2⟩, by decide, rfl, ?_⟩,
    ⟨⟨⟨0x1234, 3, 1, 2, 1999, .tally 0 0 1 none []⟩, 0, false, 2⟩, by decide, rfl, ?_⟩⟩ <;>
  exact ⟨0, 1, none, [], rfl, rfl⟩

/-- A point operand outside 1..4. -/
theorem witness_ConfirmOpensAFill_invalid :
    running.ready ∧ running.mode = .run ∧ (0 : Byte).toNat = 0 ∧ 4 < (5 : Byte).toNat :=
  ⟨running_ready, rfl, rfl, by decide⟩

/-- R94: the OPEN of a fill displaces the TALLY part from a full queue. -/
theorem test_displaced :
    (let t := (after (.confirm 1 500000 7) (fullLink offered)).link
     (t.queue.map (fun x => x.bulletin.seq), t.counters.displaced)) =
      ([0, 1, 3, 4, 5, 6, 7, 8], 1) := by decide +kernel

/-- P1 in IDENT, its nozzle lifted. -/
def ident : State := p1 .ident .stopped .empty running

theorem witness_ManualIdMakesAnOffer :
    (ident.ready ∧ ident.mode = .run ∧ pointOf 1 = some 0 ∧ ident.role 0 = .delivery ∧
      (ident.point 0).state = .ident ∧ ident.machineByFleet (4117 : BitVec 16).toNat = some machine ∧
      machine.barred = false ∧ ident.productAt 0 = (1 : Fin 8).val + 1 ∧
      machine.products.getLsbD (1 : Fin 8).val = true ∧
      ident.receiptOpen (ident.compartmentOf 0) = false ∧ ident.freeSlots > 4 ∧
      ident.presetOf 0 machine (ident.pp 0).defaultPreset = 500000 ∧ (ident.pp 0).minFill ≤ 500000 ∧
      (ident.pp 0).autoConfirm = false) ∧
    (ident.machineByFleet (9999 : BitVec 16).toNat = none ∧ ident.waits 0) :=
  ⟨⟨⟨rfl, rfl⟩, rfl, rfl, rfl, rfl, by decide +kernel, rfl, rfl, by decide, rfl, by decide +kernel,
    by decide +kernel, by decide, rfl⟩, by decide +kernel, waits_of (by decide)⟩

theorem witness_ManualIdMakesAnOffer_refused :
    (ident.ready ∧ (ident.point 0).state = .ident ∧ (ident.pp 0).defaultPreset = 500000) ∧
    Refuses (receiving ident) machine .compartmentBusy ∧
      Refuses (journalFull ident) machine .journalFull ∧
      Refuses (roster [spent] ident) spent .noAllowance ∧
      Refuses (roster [small] ident) small .tankCapacity ∧
      Refuses (withStock 404999 900 ident) machine .noStock :=
  ⟨⟨⟨rfl, rfl⟩, rfl, rfl⟩, by decide +kernel⟩

/-- P1 in IDENT, the roster and auto-confirm as given. -/
def identFor (m : RosterRecord) (auto : Bool) : State :=
  let s := roster [m] ident
  { s with params := { s.params with
      points := s.params.points.set 0 { deliveryPoint with autoConfirm := auto } } }

theorem witness_ManualIdMakesAnOffer_lookup :
    (identFor { machine with barred := true } false).machineByFleet (4117 : BitVec 16).toNat =
        some { machine with barred := true } ∧
      (identFor { machine with products := 0x01 } false).machineByFleet (4117 : BitVec 16).toNat =
        some { machine with products := 0x01 } ∧
      (0x01 : Byte).getLsbD (1 : Fin 8).val = false ∧ (identFor machine false).waits 0 ∧
    ((identFor machine true).machineByFleet (4117 : BitVec 16).toNat = some machine ∧
      (identFor machine true).firstRefusal 0 machine ((identFor machine true).pp 0).defaultPreset = none ∧
      ((identFor machine true).pp 0).autoConfirm = true) ∧
    (running.point 0).state ≠ .ident ∧ ident.role 3 ≠ .delivery :=
  ⟨by decide +kernel, by decide +kernel, by decide, waits_of (by decide),
    ⟨by decide +kernel, by decide +kernel, rfl⟩, (by decide : PointState.idle ≠ .ident),
    (by decide : Role.receipt ≠ .delivery)⟩

/-- R16, R22, R26: MANUAL_ID of a barred machine, of one without the product, and at an auto-confirm point. -/
theorem test_manual_id :
    (after (.manualId 1 4117) (identFor { machine with barred := true } false)).port.response =
        ⟨8, .refused, [.num 1 2]⟩ ∧
      (after (.manualId 1 4117) (identFor { machine with products := 0x01 } false)).port.response =
        ⟨8, .refused, [.num 1 3]⟩ ∧
      ((after (.manualId 1 4117) (identFor machine true)).point 0).state = .priming := by decide +kernel

/-- R23, R83, R25: the first check that fails gives the reason, in an offer and in a confirm. -/
theorem test_refusals :
    ((after (.manualId 1 4117) (roster [spent] ident)).point 0).ctx.refusal = some .noAllowance ∧
      (after (.confirm 1 500000 7) (withStock 404999 900 offered)).port.response =
        ⟨7, .refused, [.num 1 RefusalReason.noStock.code]⟩ ∧
      (after (.confirm 2 500000 7) offered).port.response = ⟨7, .wrongRole, []⟩ := by decide +kernel

/-- P4 out of service, its coupling closed; and the same with the coupling open. -/
def outOfService : State := p4 .outOfService .stopped .empty running
/-- P4 out of service, its coupling open. -/
def outAtRest : State :=
  { outOfService with
    scanner := { outOfService.scanner with points := outOfService.scanner.points.set 3 (settled false) } }

theorem witness_StopAndRestoreActOnAPoint :
    (∀ x : PointState, ((p1 x allTimers deliveryContext running).ready ∧
      (p1 x allTimers deliveryContext running).mode = .run ∧ pointOf 1 = some 0 ∧
      (p1 x allTimers deliveryContext running).role 0 ≠ .unused ∧
      ((p1 x allTimers deliveryContext running).point 0).state = x ∧
      (p1 x allTimers deliveryContext running).waits 0)) ∧
    (outOfService.ready ∧ pointOf 4 = some 3 ∧ outOfService.role 3 ≠ .unused ∧
      (outOfService.point 3).state = .outOfService ∧ outOfService.port.parkPending = false ∧
      ¬ outOfService.switchAt 3 = some false) ∧
    (outAtRest.ready ∧ (outAtRest.point 3).state = .outOfService ∧ outAtRest.switchAt 3 = some false) :=
  ⟨fun x => ⟨⟨rfl, rfl⟩, rfl, rfl, (by decide : Role.delivery ≠ .unused), rfl,
      (by decide : running.switchAt 0 ≠ some false)⟩,
    ⟨⟨rfl, rfl⟩, rfl, by decide, rfl, rfl, by decide⟩, ⟨rfl, rfl⟩, rfl, rfl⟩

/-- P1 in a state, its nozzle back in place, a park pending or not. -/
def atRest (x : PointState) (park : Bool) : State :=
  let s := p1 x allTimers deliveryContext running
  { s with
    scanner := { s.scanner with points := s.scanner.points.set 0 (settled false) }
    port := { s.port with parkPending := park } }

theorem witness_StopAndRestoreActOnAPoint_rest (x : PointState) (park : Bool) :
    (atRest x park).ready ∧ (atRest x park).mode = .run ∧ (atRest x park).role 0 ≠ .unused ∧
      ((atRest x park).point 0).state = x ∧ (atRest x park).switchAt 0 = some false ∧
      (atRest x park).port.parkPending = park ∧
      (∀ p : PointId, p ≠ 0 → ((atRest x park).point p).state = .idle) := by
  refine ⟨⟨rfl, rfl⟩, rfl, (by decide : Role.delivery ≠ .unused), rfl, rfl, rfl, fun p h => ?_⟩
  match p, h with
  | 1, _ | 2, _ | 3, _ => rfl

/-- R185, R186: a pending park takes effect as the last point returns to IDLE. -/
theorem test_pending_park :
    (let t := after (.restore 1) (atRest .outOfService true)
     (t.mode, t.port.parkPending, (t.point 0).state)) = (.parked, false, .idle) ∧
      (after (.restore 1) (atRest .outOfService false)).mode = .run := by decide +kernel

theorem witness_StopAndRestoreActOnAPoint_refused :
    running.ready ∧ pointOf 2 = some 1 ∧ running.role 1 = .unused ∧
      (running.point 0).state ≠ .outOfService :=
  ⟨running_ready, rfl, rfl, (by decide : PointState.idle ≠ .outOfService)⟩

/-! ### Witnesses: prices and the journal -/

/-- The machine with PRICE_HOLD set. -/
def priceHold : State := { running with journal := { running.journal with hold := true } }

theorem witness_PriceRequestsWriteTheTables :
    running.ready ∧ takenIn (.setPrice 1 99999) running.mode = true ∧
      takenIn .holdPrices running.mode = true ∧ running.journal.hold = false ∧
      (1 ≤ (8 : Byte).toNat ∧ (8 : Byte).toNat ≤ 8 ∧ (99999 : BitVec 32).toNat ≤ 99999) ∧
      ¬ (1 ≤ (9 : Byte).toNat ∧ (9 : Byte).toNat ≤ 8 ∧ (0 : BitVec 32).toNat ≤ 99999) ∧
      priceHold.ready ∧ takenIn .holdPrices priceHold.mode = true ∧ priceHold.journal.hold = true :=
  ⟨running_ready, rfl, rfl, rfl, by decide, by decide, ⟨rfl, rfl⟩, rfl, rfl⟩

/-- The closed fill of section 3.11. -/
def closedFill : FillRecord :=
  { fillRecord with net := 19733, cost := some 3739, endReason := some .preset }

/-- A ring of one closed delivery of the shift. -/
def oneDelivery : State := withRing [record 1 true (.fill false closedFill)] running

theorem witness_VoidIsTestedInOrderAndCancelsTheBilling :
    oneDelivery.ready ∧ takenIn (.void 1) oneDelivery.mode = true ∧
      oneDelivery.voidTest (1 : BitVec 32).toNat =
        .ok (0, record 1 true (.fill false closedFill), closedFill) ∧
      closedFill.account = some ((5 : Fin 32).val + 1) ∧ oneDelivery.journal.oldest < 4096 :=
  ⟨⟨rfl, rfl⟩, rfl, rfl, rfl, by decide⟩

/-- A ring with a record for each test of R156: 1 OPEN, 2 of another shift, 3 voided, 4 no delivery. -/
def voidTests : State :=
  withRing [record 1 false (.fill false fillRecord),
    { record 2 true (.fill false closedFill) with shift := some 1998 },
    { record 3 true (.fill false closedFill) with voided := true }, record 4 true (.stocktake 1 5),
    record 5 true (.fill false closedFill)] running

/-- The result of a refused test. -/
def refusedWith {α : Type} : Except Result α → Option Result
  | .error e => some e
  | .ok _ => none

theorem witness_VoidIsTestedInOrder :
    voidTests.ready ∧ takenIn (.void 9) voidTests.mode = true ∧
      voidTests.voidTest (9 : BitVec 32).toNat = .error .notFound ∧
      voidTests.voidTest (1 : BitVec 32).toNat = .error .wrongKind ∧
      voidTests.voidTest (2 : BitVec 32).toNat = .error .wrongShift ∧
      voidTests.voidTest (3 : BitVec 32).toNat = .error .alreadyVoided ∧
      voidTests.voidTest (4 : BitVec 32).toNat = .error .wrongKind ∧
      refusedWith (({ voidTests with journal := { voidTests.journal with setAside := 4091 } } :
        State).voidTest (5 : BitVec 32).toNat) = some .journalFull :=
  ⟨⟨rfl, rfl⟩, rfl, rfl, rfl, rfl, rfl, rfl, by decide +kernel⟩

theorem witness_ReadJournalMovesTheCursor :
    running.ready ∧ takenIn (.readJournal 1 6 4) running.mode = true ∧
      ((1 : Byte).toNat ≤ 1 ∧ (6 : Byte).toNat ≤ 6 ∧ 1 ≤ (4 : Byte).toNat ∧ (4 : Byte).toNat ≤ 4) ∧
      ¬ ((0 : Byte).toNat ≤ 1 ∧ (0 : Byte).toNat ≤ 6 ∧ 1 ≤ (5 : Byte).toNat ∧ (5 : Byte).toNat ≤ 4) :=
  ⟨running_ready, rfl, by decide, by decide⟩

theorem witness_ExportDoneMarksAndReleases :
    voidTests.ready ∧ takenIn (.exportDone 5) voidTests.mode = true ∧
      voidTests.journal.held ≤ 4096 ∧ voidTests.journal.oldest < 4096 :=
  ⟨⟨rfl, rfl⟩, rfl, by decide, by decide⟩

/-! ### Witnesses: stock-take, link, reads -/

theorem witness_StocktakeSetsTheBook :
    running.ready ∧ takenIn (.stocktake 2 15000000) running.mode = true ∧
      compOf (2 : Byte).toNat = some 1 ∧ running.cp 1 = some compartment ∧
      (15000000 : BitVec 32).toNat ≤ compartment.capacity * 1000 ∧ running.fillOpenOn 1 = false ∧
      running.freeSlots ≠ 0 :=
  ⟨running_ready, rfl, rfl, rfl, by decide +kernel, rfl, by decide +kernel⟩

/-- STOCKTAKE before START; and with the own request active, its entry in the queue. -/
theorem witness_StocktakeSetsTheBook_restock :
    ((inMode .standby).ready ∧ takenIn (.stocktake 2 15000000) .standby = true ∧
      (inMode .standby).started = false ∧ (inMode .standby).freeSlots ≠ 0) ∧
    (running.started = true ∧ running.stock.active = false ∧ running.peers.round = none ∧
      running.link.queue.length ≤ 6) ∧
    ({ running with stock := { running.stock with active := true, queue := [⟨3, 100, 86410500⟩] } } :
      State).stock.queue.any (fun x => x.station == running.params.stationId) = true :=
  ⟨⟨⟨rfl, rfl⟩, rfl, rfl, by decide +kernel⟩, ⟨rfl, rfl, rfl, by decide⟩, by decide⟩

/-- The refusals of STOCKTAKE: a compartment that is not there, one that is not present, a volume above the
capacity, a fill open on the compartment, and no free slot. -/
theorem witness_StocktakeSetsTheBook_refused :
    (compOf (4 : Byte).toNat = none ∧ compOf (1 : Byte).toNat = some 0 ∧ running.cp 0 = none) ∧
    (running.cp 1 = some compartment ∧ compartment.capacity * 1000 < (15000001 : BitVec 32).toNat) ∧
    flowing.fillOpenOn 1 = true ∧
    ({ running with journal := { running.journal with setAside := 4096 } } : State).freeSlots = 0 :=
  ⟨⟨rfl, rfl, rfl⟩, ⟨rfl, by decide⟩, by decide, by decide +kernel⟩

/-- R140, R141, R145: a stock-take below the ask level asks for a bay, and the own turn comes up. -/
theorem test_bay_ask :
    (let t := after (.stocktake 2 1500000) running
     (t.stock.active, t.stock.queue, t.link.queue.map (fun x => x.bulletin.body), t.stock.turn)) =
      (true, [⟨3, 100, 86412300⟩], [.bayAsk 100], true) := by decide +kernel

/-- The transmit queue with bulletins of station 3. -/
def queued (n : Nat) (tx : TxState) : State :=
  withLink (fun l => { l with
    tx := tx, rx := .hunt
    queue := List.replicate n ⟨⟨0x1234, 3, 1, 0, 1999, .bayDone⟩, 0, false, 0⟩ }) running

theorem witness_PurgeEmptiesTheLink :
    (queued 2 .sending).ready ∧ takenIn .purgeLink (queued 2 .sending).mode = true ∧
      (queued 2 .sending).peers.round = none ∧ (queued 2 .sending).peers.pendingCount = 0 :=
  ⟨⟨rfl, rfl⟩, rfl, rfl, rfl⟩

/-- A TALLY part of round 7, the first, at the head of the queue with its busy findings, a BAY_DONE behind it
or none, and the round of two parts or one, or none, in progress. -/
def roundAt (parts busy : Nat) (behind ended : Bool) (tx : TxState) : State :=
  let s := queued (if behind then 1 else 0) tx
  { s with
    link := { s.link with
      queue := ⟨⟨0x1234, 3, 1, 255, 1999, .tally 7 0 parts none [(4117, 9)]⟩, busy, false, 0⟩ ::
        s.link.queue }
    allowance := { s.allowance with own := [(4117, 9)] }
    peers := { s.peers with
      tallyTimer := true, round := if ended then none else some ⟨7, [4117], parts, 1, false⟩ } }

theorem part_of_round (parts busy : Nat) (behind : Bool) (tx : TxState) :
    (roundAt parts busy behind false tx).partOfRound
      ⟨0x1234, 3, 1, 255, 1999, .tally 7 0 parts none [(4117, 9)]⟩ ⟨7, [4117], parts, 1, false⟩ :=
  ⟨rfl, 0, parts, none, [(4117, 9)], rfl, rfl⟩

theorem witness_PurgeEmptiesTheLink_round (parts : Nat) :
    (roundAt parts 0 false false .quiet).ready ∧
      takenIn .purgeLink (roundAt parts 0 false false .quiet).mode = true ∧
      (roundAt parts 0 false false .quiet).peers.pendingCount = 0 ∧
      (roundAt parts 0 false false .quiet).partOfRound
        ⟨0x1234, 3, 1, 255, 1999, .tally 7 0 parts none [(4117, 9)]⟩ ⟨7, [4117], parts, 1, false⟩ ∧
    ∀ r : Round, ¬ (roundAt parts 0 false true .quiet).partOfRound
      ⟨0x1234, 3, 1, 255, 1999, .tally 7 0 parts none [(4117, 9)]⟩ r :=
  ⟨⟨rfl, rfl⟩, rfl, rfl, part_of_round parts 0 false .quiet, fun _ h => nomatch h.1⟩

/-- R93, R124, R125: the part that leaves brings the next, the last part ends the round, and a part of an ended
round brings none. -/
theorem test_round_goes_on :
    (let t := after .transmissionEnd (roundAt 2 0 true false .sending)
     (t.link.queue.map (fun x => x.bulletin.body), t.peers.round.map Round.next)) =
        ([.bayDone, .tally 7 1 2 none []], some 2) ∧
      (let t := after .transmissionEnd (roundAt 1 0 true false .sending)
       (t.link.queue.map (fun x => x.bulletin.body), t.peers.round)) = ([.bayDone], none) ∧
      (after .purgeLink (roundAt 2 0 true false .quiet)).link.queue.map (fun x => x.bulletin.body) =
        [.tally 7 1 2 none []] ∧
      (after .transmissionEnd (roundAt 2 0 true true .sending)).link.queue.map
        (fun x => x.bulletin.body) = [.bayDone] := by decide +kernel

theorem witness_ReadsClearNoMoreThanTheirCause :
    running.ready ∧ takenIn .readStock running.mode = true ∧ pointOf 4 = some 3 ∧
      (32 : Byte).toNat = (31 : Fin 32).val + 1 ∧ 32 < (33 : Byte).toNat ∧ (0 : Byte).toNat = 0 ∧
      running.machineByFleet (4117 : BitVec 16).toNat = some machine ∧
      running.machineByFleet (9999 : BitVec 16).toNat = none :=
  ⟨running_ready, rfl, rfl, rfl, by decide, rfl, by decide +kernel, by decide +kernel⟩

theorem witness_ReadAttentionReturnsTheHighestCause : running.ready := running_ready

theorem witness_StatusConditionAndFaultReadsClear : running.ready := running_ready

/-! ### Witnesses: switches and tag lines -/

/-- The levels at which `running` is settled, ESTOP as given. -/
def levels (estop : Bool) : SwitchLevels := ⟨#v[true, false, false, true], true, estop, false⟩

theorem witness_SwitchesAreDebounced :
    1 ≤ 3 ∧ (true : Bool) ≠ false ∧ running.powered = true ∧
      running.scanner.reports running.runNeeded (levels true) = [] := by decide

/-- CAL unsettled, twice sampled as closed. -/
def nearCal : State :=
  { running with scanner := { running.scanner with cal := ⟨none, some true, 2⟩ } }

theorem witness_SwitchesAreDebounced_settling :
    ((⟨none, none, 0⟩ : Debounce).value = none ∧ (⟨none, none, 0⟩ : Debounce).run ≠ some true ∧
      (⟨none, some true, 2⟩ : Debounce).run ≠ some false) ∧
    nearCal.powered = true ∧ nearCal.scanner.reports nearCal.runNeeded
      ⟨#v[true, false, false, true], true, false, true⟩ = [.cal (.initial true)] := by decide

/-- P1 flowing, ESTOP twice sampled as asserted. -/
def nearEstop : State :=
  { flowing with scanner := { flowing.scanner with estop := ⟨some false, some true, 2⟩ } }

/-- P1 flowing, PARK_BRAKE twice sampled as released. -/
def nearBrake : State :=
  { flowing with scanner := { flowing.scanner with brake := ⟨some true, some false, 2⟩ } }

theorem witness_EstopAndBrakeReleaseEndFills :
    (nearBrake.powered = true ∧ nearBrake.scanner.reports nearBrake.runNeeded
        ⟨#v[true, false, false, true], false, false, false⟩ = [.brake (.change false)] ∧
      (SwitchEvent.change false).value = false ∧ nearBrake.port.parkPending = false ∧
      nearBrake.role 0 = .delivery ∧ (nearBrake.point 0).state.endable = true ∧
      nearBrake.role 3 ≠ .delivery) ∧
    nearEstop.powered = true ∧
      nearEstop.scanner.reports nearEstop.runNeeded (levels true) = [.estop (.change true)] ∧
      (SwitchEvent.change true).value = true ∧ nearEstop.port.parkPending = false ∧
      (nearEstop.point 0).state.endable = true ∧ nearEstop.waits 0 :=
  ⟨⟨rfl, by decide, rfl, rfl, rfl, by decide, by decide⟩, rfl, by decide, rfl, rfl, by decide,
    waits_of (by decide)⟩

/-- P1 waiting in IDENT with a park pending, ESTOP or the park brake about to be recognised. -/
def parkIdent (s : State) : State :=
  let t := s.setPoint 0 { Point.reset with state := .ident }
  { t with port := { t.port with parkPending := true } }

theorem witness_EstopAndBrakeReleaseEndFills_park :
    ∀ s ∈ [parkIdent nearEstop, parkIdent nearBrake], s.powered = true ∧ s.port.parkPending = true ∧
      (s.point 0).state = .ident ∧ s.waits 0 ∧ ∀ p : PointId, p ≠ 0 → (s.point p).state = .idle := by
  simp only [List.forall_mem_cons]
  refine ⟨⟨rfl, rfl, rfl, waits_of (by decide), fun p h => ?_⟩,
    ⟨rfl, rfl, rfl, waits_of (by decide), fun p h => ?_⟩, fun _ h => (List.not_mem_nil h).elim⟩ <;>
  match p, h with
  | 1, _ | 2, _ | 3, _ => rfl

/-- A point in a state, its switch twice sampled at a value against the settled other one. -/
def nearSwitch (p : PointId) (v : Bool) (x : PointState) : State :=
  let s := running.setPoint p { Point.reset with state := x, ctx := deliveryContext }
  { s with scanner := { s.scanner with points := s.scanner.points.set p ⟨some (!v), some v, 2⟩ } }

theorem witness_SwitchReportsActAtTheirPoint (x : PointState) :
    (running.role 0 = .delivery ∧ running.role 3 = .receipt ∧ running.role 1 = .unused) ∧
    (∀ v : Bool, (nearSwitch 0 v x).powered = true ∧ (nearSwitch 0 v x).mode = .run ∧
      (nearSwitch 0 v x).scanner.reports (nearSwitch 0 v x).runNeeded
        ⟨#v[v, false, false, true], true, false, false⟩ = [.point 0 (.change v)] ∧
      ((nearSwitch 0 v x).point 0).state = x) ∧
    (∀ v : Bool, (nearSwitch 3 v x).powered = true ∧ (nearSwitch 3 v x).mode = .run ∧
      (nearSwitch 3 v x).scanner.reports (nearSwitch 3 v x).runNeeded
        ⟨#v[true, false, false, v], true, false, false⟩ = [.point 3 (.change v)] ∧
      ((nearSwitch 3 v x).point 3).state = x) :=
  ⟨⟨rfl, rfl, rfl⟩, fun v => by cases v <;> exact ⟨rfl, rfl, rfl, rfl⟩,
    fun v => by cases v <;> exact ⟨rfl, rfl, rfl, rfl⟩⟩

/-- R21, R42: a lift on a released brake is refused with BRAKE; a coupling closed makes an offer. -/
theorem test_switch_reports :
    ((after (.switchSample ⟨#v[true, false, false, true], true, false, false⟩)
        { nearSwitch 0 true .idle with scanner :=
          { (nearSwitch 0 true .idle).scanner with brake := ⟨some false, none, 0⟩ } }).point 0).ctx.refusal =
        some .brake ∧
      ((after (.switchSample ⟨#v[true, false, false, true], true, false, false⟩)
        (nearSwitch 3 true .idle)).point 3).ctx.offer = some 5340000 := by decide +kernel

/-- P1's tag line with a FIFO, a frame and a presence. -/
def tagLine (fifo frame : List Byte) (x : Presence) (current candidate : Option TagId) : State :=
  flowing.setLine 0 { TagLine.reset with
    powered := true, fifo := fifo, frame := frame, charTimer := true, presence := x,
    current := current, candidate := candidate, lossTimer := true }

/-- The first ten bytes of the tag frame of machine 4117. -/
def tagFrame : List Byte := [0xA5, 0x3C, 0x0A, 0x91, 0x00, 0x5E, 0x22, 0x7B, 0x10, 0x00]

theorem witness_TagBytesAssembleAFrame :
    ((tagLine [] [] .absent none none).line 0).powered = true ∧
      ((tagLine [] [] .absent none none).line 0).fifo.length < 16 ∧
      ((tagLine (List.replicate 16 0) [] .absent none none).line 0).powered = true ∧
      ¬ ((tagLine (List.replicate 16 0) [] .absent none none).line 0).fifo.length < 16 ∧
      ((tagLine [0xA5] [] .absent none none).line 0).fifo = [0xA5] ∧
      ((tagLine [0x00] (tagFrame.take 9) .absent none none).line 0).frame.length < 10 ∧
      ¬ ((tagLine [0x00] tagFrame .absent none none).line 0).frame.length < 10 ∧
      (running.line 0).powered = false ∧
      xorBytes (((tagFrame ++ [0x00]).drop 1).take 9) ≠ (tagFrame ++ [0x00]).getD 10 0 ∧
      xorBytes (((tagFrame ++ [0xB0]).drop 1).take 9) = (tagFrame ++ [0xB0]).getD 10 0 := by decide

/-- Nine bytes of a frame with status 01h, the reader finding no tag. -/
def noTag : List Byte := [0xA5, 0, 0, 0, 0, 0, 0, 0, 0, 0x01]

/-- R8, R11: a no-tag frame returns PENDING to ABSENT; in PRESENT it clears the candidate alone. -/
theorem test_no_tag :
    (let t := after (.tagByteTaken 0) (tagLine [0x01] noTag .pending none (some 7))
     ((t.line 0).presence, (t.line 0).candidate, (t.line 0).lossTimer)) = (.absent, none, false) ∧
      (let t := after (.tagByteTaken 0) (tagLine [0x01] noTag .present (some 5) (some 7))
       ((t.line 0).presence, (t.line 0).candidate, (t.line 0).current)) =
        (.present, none, some 5) := by decide

theorem ends_tag_frame (x : Presence) (current candidate : Option TagId) :
    (tagLine [0xB0] tagFrame x current candidate).endsTagFrame 0 0xB0 machine.tag :=
  ⟨⟨rfl, rfl, (by decide : xorBytes (((tagFrame ++ [0xB0]).drop 1).take 9) =
      (tagFrame ++ [0xB0]).getD 10 0)⟩, rfl,
    (by decide +kernel : machine.tag = BitVec.ofNat 64 (ofBe (((tagFrame ++ [0xB0]).drop 1).take 8)))⟩

theorem witness_PresenceNeedsTwoFrames (x : Presence) (current candidate : Option TagId) :
    (tagLine [0xB0] tagFrame x current candidate).endsTagFrame 0 0xB0 machine.tag ∧
      ((tagLine [0xB0] tagFrame x current candidate).line 0).presence = x ∧
      ((tagLine [0xB0] tagFrame x current candidate).line 0).current = current ∧
      ((tagLine [0xB0] tagFrame x current candidate).line 0).candidate = candidate ∧
      ((tagLine [0xB0] tagFrame x current candidate).point 0).state ≠ .ident ∧
      ((tagLine [0xB0] tagFrame x current candidate).point 0).state ≠ .paused :=
  ⟨ends_tag_frame x current candidate, rfl, rfl, rfl,
    (by decide : PointState.flowing ≠ .ident), (by decide : PointState.flowing ≠ .paused)⟩

theorem witness_PresenceNeedsTwoFrames_noTag (x : Presence) (current candidate : Option TagId) :
    (tagLine [0x01] noTag x current candidate).endsNoTagFrame 0 0x01 ∧
      ((tagLine [0x01] noTag x current candidate).line 0).presence = x :=
  ⟨⟨⟨rfl, rfl, (by decide : xorBytes (((noTag ++ [0x01]).drop 1).take 9) =
      (noTag ++ [0x01]).getD 10 0)⟩, (by decide : (noTag ++ [0x01]).getD 9 0 ≠ (0 : Byte))⟩, rfl⟩

/-- The end of a frame of machine 4117 on P1's line, P1 in a state, the roster and the points as given. -/
def tagArrives (x : PointState) (roster : List RosterRecord) (auto : Bool) (current : Option TagId) :
    State :=
  let s := (tagLine [0xB0] tagFrame (if current.isSome then .present else .pending) current
    (some machine.tag)).setPoint 0 { Point.reset with state := x, ctx := deliveryContext }
  { s with params := { s.params with
      roster := roster, points := s.params.points.set 0 { deliveryPoint with autoConfirm := auto } } }

/-- R22, R23: an unknown tag, a barred machine, an offer, and a fill opened at once. -/
theorem test_tag_reports :
    ((after (.tagByteTaken 0) (tagArrives .ident [] false none)).point 0).ctx.refusal =
        some .unknownTag ∧
      ((after (.tagByteTaken 0) (tagArrives .ident [{ machine with barred := true }] false none)).point
        0).ctx.refusal = some .barred ∧
      ((after (.tagByteTaken 0) (tagArrives .ident [machine] false none)).point 0).ctx.offer =
        some 500000 ∧
      ((after (.tagByteTaken 0) (tagArrives .ident [machine] true none)).point 0).state = .priming := by
  decide +kernel

theorem witness_TagReportsActAtTheirPoint (x : PointState) (auto : Bool) (current : Option TagId) :
    (let s := tagArrives x [machine] auto current
     s.mode = .run ∧ s.role 0 = .delivery ∧ (s.line 0).powered = true ∧
      s.endsTagFrame 0 0xB0 machine.tag ∧ (s.line 0).candidate = some machine.tag ∧ s.waits 0 ∧
      (s.point 0).state = x ∧ s.machineByTag machine.tag = some machine ∧
      s.productAt 0 = (1 : Fin 8).val + 1 ∧ (s.pp 0).autoConfirm = auto ∧
      s.receiptOpen (s.compartmentOf 0) = false ∧ (s.point 0).ctx.tag = some machine.tag ∧
      (s.line 0).lossTimer = true ∧ (s.line 0).current = current) ∧
    ((tagArrives x [machine] auto none).line 0).presence = .pending ∧
    ((tagArrives x [machine] auto (some 7)).line 0).presence = .present ∧
    ((tagArrives .ident [machine] auto none).firstRefusal 0 machine 500000 = none ∧
      Refuses (receiving (tagArrives .ident [machine] auto none)) machine .compartmentBusy ∧
      Refuses (journalFull (tagArrives .ident [machine] auto none)) machine .journalFull ∧
      Refuses (tagArrives .ident [spent] auto none) spent .noAllowance ∧
      Refuses (tagArrives .ident [small] auto none) small .tankCapacity ∧
      Refuses (withStock 404999 900 (tagArrives .ident [machine] auto none)) machine .noStock) ∧
    (tagArrives .ident [] auto none).machineByTag machine.tag = none := by
  refine ⟨⟨rfl, rfl, rfl, ends_tag_frame _ current (some machine.tag), rfl,
    waits_of (by decide : running.switchAt 0 ≠ some false), rfl,
    (by decide : [machine].find? (fun r => r.tag == machine.tag && machine.tag != 0) = some machine),
    rfl, rfl, rfl, rfl, rfl, rfl⟩, rfl, rfl, ?_, rfl⟩
  cases auto <;> decide +kernel

theorem witness_TagAndPointTimersEndTheirStates :
    (((tagLine [] tagFrame .pending none none).line 0).charTimer = true ∧
      ((tagLine [] tagFrame .pending none none).line 0).lossTimer = true ∧
      ((tagLine [] tagFrame .pending none none).line 0).presence = .pending) ∧
    (((tagLine [] [] .present none none).line 0).presence = .present ∧
      (tagLine [] [] .present none none).role 0 = .delivery ∧
      ((tagLine [] [] .present none none).point 0).ctx.tag.isSome = true ∧
      ((tagLine [] [] .present none none).point 0).state = .flowing) ∧
    ((offered.point 0).state = .offered ∧ (offered.point 0).timers.confirm = true ∧ offered.waits 0) ∧
    (∀ x : PointState, ((p1 x allTimers deliveryContext running).point 0).state = x ∧
      ((p1 x allTimers deliveryContext running).point 0).timers = allTimers) :=
  ⟨⟨rfl, rfl, rfl⟩, ⟨rfl, rfl, rfl, rfl⟩, ⟨rfl, rfl, waits_of (by decide)⟩, fun _ => ⟨rfl, rfl⟩⟩

/-! ### Witnesses: the close, metering -/

/-- P1 closing the fill of section 3.11, its record OPEN in slot 0. -/
def closing : State :=
  { withRing [record 1 false (.fill false fillRecord)] (p1 .closing allTimers deliveryContext running) with
    meters := running.meters.set 0 interval2 }

/-- P4 closing a receipt, its record OPEN in slot 0. -/
def closingReceipt : State :=
  { withRing [record 1 false (.fill true fillRecord)]
      (p4 .closing allTimers { FillContext.empty with slot := some 0, preset := some 5000 } running) with
    meters := running.meters.set 3 interval2 }

theorem witness_CloseBillsTheFill :
    ((closing.point 0).state = .closing ∧ (closing.point 0).timers.settle = true ∧
      (closing.point 0).outMark = false ∧ closing.role 0 = .delivery ∧
      (closing.point 0).ctx.machine = some machine ∧ machine.account = (5 : Fin 32).val + 1 ∧
      closing.productAt 0 = (1 : Fin 8).val + 1 ∧ closing.waits 0 ∧
      (closing.point 0).ctx.slot = some 0 ∧
      slotAt closing.rm.slots 0 = some ⟨true, record 1 false (.fill false fillRecord)⟩ ∧
      closing.params.meters[(0 : PointId)] = some meterValues ∧
      (closing.allowance.own.map Prod.fst).Pairwise (· < ·) ∧ closing.peers.round = none ∧
      closing.link.queue.length ≤ 6) ∧
    (closingReceipt.params.meters[(3 : PointId)] = some meterValues ∧
      closingReceipt.productAt 3 = (1 : Fin 8).val + 1 ∧ (closingReceipt.point 3).state = .closing ∧ (closingReceipt.point 3).timers.settle = true ∧
      (closingReceipt.point 3).outMark = false ∧ closingReceipt.role 3 = .receipt ∧
      closingReceipt.waits 3 ∧ (closingReceipt.point 3).ctx.slot = some 0 ∧
      slotAt closingReceipt.rm.slots 0 = some ⟨true, record 1 false (.fill true fillRecord)⟩) :=
  ⟨⟨rfl, rfl, rfl, rfl, rfl, rfl, rfl, waits_of (by decide), rfl, rfl, rfl, by decide, rfl, by decide⟩,
    rfl, rfl, rfl, rfl, rfl, rfl, waits_of (by decide), rfl, rfl⟩

/-- The close of a point that is marked so as to go OUT_OF_SERVICE. -/
def closingMarked : State := closing.setPoint 0 { closing.point 0 with outMark := true }
/-- The close of a delivery whose nozzle is back already. -/
def closingAtRest : State :=
  { closing with
    scanner := { closing.scanner with points := closing.scanner.points.set 0 (settled false) } }

theorem witness_CloseBillsTheFill_after :
    ((closingMarked.point 0).state = .closing ∧ (closingMarked.point 0).timers.settle = true ∧
      (closingMarked.point 0).outMark = true ∧ closingMarked.role 0 = .delivery ∧
      (closingMarked.point 0).ctx.slot = some 0) ∧
    ((closingAtRest.point 0).state = .closing ∧ (closingAtRest.point 0).timers.settle = true ∧
      (closingAtRest.point 0).outMark = false ∧ closingAtRest.switchAt 0 = some false ∧
      (closingAtRest.point 0).ctx.slot = some 0) := ⟨⟨rfl, rfl, rfl, rfl, rfl⟩, rfl, rfl, rfl, rfl, rfl⟩

/-- R40, R41: where the point goes at its close. -/
theorem test_close_state :
    ((after (.closeSettleExpiry 0 0 .absent) closing).point 0).state = .ended ∧
      ((after (.closeSettleExpiry 0 0 .absent) closingMarked).point 0).state = .outOfService ∧
      ((after (.closeSettleExpiry 0 0 .absent) closingAtRest).point 0).state = .idle := by
  decide +kernel

/-- R68, R92: the close of section 3.11 raises the own total by N and queues the CLOSE bulletin. -/
theorem test_close :
    (let t := after (.closeSettleExpiry 0 0 .absent)
       { closing with
         meters := closing.meters.set 0
           { interval2 with live := 5000, interval := 0, c := 50030000, w := 1578000, rpos := 5000 }
         allowance := { closing.allowance with own := [(4117, 300000)] } }
     (t.allowance.own, t.link.queue.map (fun x => x.bulletin.body))) =
      ([(4117, 319733)], [.closeFill 4117 319733 19733 1]) := by decide +kernel

theorem witness_CloseTimeoutTakesThePointOut :
    (closing.point 0).state = .closing ∧ (closing.point 0).timers.closeTimeout = true ∧
      (closing.point 0).ctx.slot = some 0 ∧
      slotAt closing.rm.slots 0 = some ⟨true, record 1 false (.fill false fillRecord)⟩ :=
  ⟨rfl, rfl, rfl, rfl⟩

theorem witness_CloseTimeoutTakesThePointOut_roles :
    (closing.role 0 = .delivery ∧ (closing.point 0).ctx.machine = some machine ∧
      machine.account = (5 : Fin 32).val + 1 ∧ closing.productAt 0 = (1 : Fin 8).val + 1 ∧
      closing.params.meters[(0 : PointId)] = some meterValues ∧
      (closing.allowance.own.map Prod.fst).Pairwise (· < ·)) ∧
    ((closingReceipt.point 3).state = .closing ∧ (closingReceipt.point 3).timers.closeTimeout = true ∧
      closingReceipt.role 3 = .receipt ∧ (closingReceipt.point 3).ctx.slot = some 0 ∧
      slotAt closingReceipt.rm.slots 0 = some ⟨true, record 1 false (.fill true fillRecord)⟩ ∧
      closingReceipt.params.meters[(3 : PointId)] = some meterValues ∧
      closingReceipt.productAt 3 = (1 : Fin 8).val + 1) :=
  ⟨⟨rfl, rfl, rfl, rfl, rfl, by decide⟩, rfl, rfl, rfl, rfl, rfl, rfl, rfl⟩

theorem witness_MeterEdgesCountByPhase :
    (closing.metersPowered = true ∧ (closing.meter 0).counting = true) ∧
    (let m : Channel := { interval2 with
       phase := 3, lastEdge := some .b, faults := 4, stopTarget := some 4501, slowTarget := some 4501 }
     ∀ x : PointState, let s := (p1 x allTimers deliveryContext running).setMeter 0 m
       s.metersPowered = true ∧ (s.meter 0).counting = true ∧ (s.point 0).state = x ∧
         togglePhase (s.meter 0).phase .b = 0 ∧ (s.meter 0).lastEdge ≠ some .a ∧
         (s.meter 0).lastEdge = some .b ∧ (s.meter 0).faults = (s.pp 0).faultLimit ∧
         (s.meter 0).stopTarget = some ((s.meter 0).live + 1)) :=
  ⟨⟨rfl, rfl⟩, fun _ => ⟨rfl, rfl, rfl, rfl, (by decide : some MeterLine.b ≠ some .a), rfl, rfl, rfl⟩⟩

theorem witness_IntervalEndUpdatesTheVolumes :
    closing.powered = true ∧ (closing.meter 0).counting = true ∧
      closing.params.meters[(0 : PointId)] = some meterValues ∧
      closing.productAt 0 = (1 : Fin 8).val + 1 := ⟨rfl, rfl, rfl, rfl⟩

theorem witness_GrossVolumeFromTheCorrectedCount :
    closing.powered = true ∧ closing.params.meters[(0 : PointId)] = some meterValues ∧
      ((closing.meter 0).counting = true ∧ ∃ t, exec (.intervalEnd 0 .absent) closing = .next t) ∧
      ((closing.point 0).state = .closing ∧ (closing.point 0).timers.settle = true ∧
        ∃ t, exec (.closeSettleExpiry 0 999 .absent) closing = .next t) ∧
      (closing.point 0).timers.closeTimeout = true ∧
        ∃ t, exec (.closeTimeout 0 0 .absent) closing = .next t :=
  ⟨rfl, rfl, ⟨rfl, _, rfl⟩, ⟨rfl, rfl, _, rfl⟩, rfl, _, rfl⟩

theorem witness_CompensationFactorStaysInRange :
    ((0 : Int) ≤ 200 ∧ (200 : Int) ≤ 200 ∧ (-400 : Int) ≤ -400 ∧ (600 : Int) ≤ 600) ∧
      ((0 : Int) < 1 ∧ (150 : Int) < 151 ∧ (149 : Int) < 150) := by decide

theorem witness_TargetsAimAtTheLeastCount :
    ((0 : Int) < 986140 ∧ (0 : Int) < 25000 ∧ (-10000 : Int) < -9999) ∧
    (closing.powered = true ∧ (closing.meter 0).counting = true ∧
      closing.params.meters[(0 : PointId)] = some meterValues ∧
      closing.productAt 0 = (1 : Fin 8).val + 1 ∧ (closing.point 0).ctx.preset = some 19500 ∧
      0 < meterValues.k ∧ (∀ band : Fin 4, -10000 < meterValues.f[band])) ∧
    (let t := after (.confirm 1 19500 7) offered
     exec (.confirm 1 19500 7) offered = .next t ∧ pointOf 1 = some 0 ∧
      (offered.point 0).state = .offered ∧ (t.point 0).state = .priming ∧
      (t.point 0).ctx.preset = some 19500 ∧ offered.params.meters[(0 : PointId)] = some meterValues) :=
  ⟨by decide, ⟨rfl, rfl, rfl, rfl, rfl, by decide, by decide⟩, rfl, rfl, rfl, by decide +kernel,
    by decide +kernel, rfl⟩

/-- A checkpoint of P1 being written into slot 0. -/
def writingCheckpoint : State :=
  { closing with
    journal := { closing.journal with writing := closing.journal.writing.set 0 (some interval2.checkpoint) } }

theorem witness_TemperatureAndCheckpointWrites :
    (running.metersPowered = true ∧ (running.meter 1).counting = false ∧ running.role 1 = .unused) ∧
    (writingCheckpoint.journal.writing[(0 : PointId)] = some interval2.checkpoint ∧
      (writingCheckpoint.point 0).ctx.slot = some 0 ∧
      slotAt writingCheckpoint.rm.slots 0 = some ⟨true, record 1 false (.fill false fillRecord)⟩ ∧
      fillRecord.areaA.ok = true ∧ fillRecord.areaB.ok = true) :=
  ⟨⟨rfl, rfl, rfl⟩, rfl, rfl, rfl, rfl, rfl⟩

/-! ### Witnesses: stock -/

/-- C2 with a valid probe, two own totals, a compartment that is not present. -/
theorem witness_PresetIsTheLeastOfItsTerms :
    (let own : List (Nat × Nat) := [(4117, 300000), (4118, 5)]
     (own.map Prod.fst).Pairwise (· < ·) ∧ (4117, 300000) ∈ own ∧ ∀ v : Nat, (9, v) ∉ own) ∧
    stockExample.cp 0 = none ∧ stockExample.cp 1 = some compartment ∧
      (stockExample.comp 1).probe = .valid ∧ (stockExample.comp 1).volume = some 8980150 ∧
      (running.comp 1).probe ≠ .valid :=
  ⟨⟨by decide, by decide, by simp⟩, rfl, rfl, rfl, rfl, (by decide : ProbeState.unsampled ≠ .valid)⟩

theorem witness_StrappedVolumesDoNotFall :
    strapping.Pairwise (fun a b => a.1 < b.1 ∧ a.2 ≤ b.2) ∧ strapping[1]? = some (2000, 1450000) ∧
      strapping[2]? = some (8000, 7900000) ∧ (2000 : Nat) ≤ 2000 ∧ 2000 < 8000 ∧
      strapping.head? = some (0, 0) ∧ strapping.getLast? = some (16500, 14750000) := by decide

/-- C2 with a valid probe that disagrees with the book. -/
def variance : State :=
  { running with
    stock := { running.stock with
      comps := running.stock.comps.set 1
        { running.comp 1 with
          quiet := some 600, probe := .valid, level := some 551, volume := some 399475,
          varianceCount := 2 } } }

/-- C2 at a count of its quiet timer. -/
def quietFor (n : Nat) (x : ProbeState) : State :=
  { variance with
    stock := { variance.stock with
      comps := variance.stock.comps.set 1 { variance.comp 1 with quiet := some n, probe := x } } }

/-- R138: a check falls due at 600 s and not before. -/
theorem test_variance_due :
    (((after (.varianceCheck 1) (quietFor 599 .valid)).comp 1).variance,
      ((after (.varianceCheck 1) (quietFor 600 .valid)).comp 1).variance) = (false, true) := by
  decide +kernel

theorem witness_ProbesAndVarianceFollowTheSamples :
    (running.started = true ∧ running.cp 1 = some compartment ∧
      strapped compartment.strapping 551 < compartment.reserve * 1000 ∧
      compartment.highLevel ≤ 16000 ∧ running.compartmentOf 0 = 1 ∧ running.compartmentOf 3 = 1 ∧
      (running.comp 1).probe = .unsampled) ∧
    State.reset.started = false ∧ ((quietFor 599 .valid).comp 1).quiet = some 599 ∧
    (((quietFor 600 .fault).comp 1).quiet = some 600 ∧ ((quietFor 600 .fault).comp 1).probe ≠ .valid) ∧
    (variance.started = true ∧ variance.cp 1 = some compartment ∧ (variance.comp 1).quiet = some 600 ∧
      (variance.comp 1).probe = .valid ∧ (variance.comp 1).volume = some 399475) :=
  ⟨⟨rfl, rfl, by decide, by decide, rfl, rfl, rfl⟩, rfl, rfl,
    ⟨rfl, (by decide : ProbeState.fault ≠ .valid)⟩, rfl, rfl, rfl, rfl, rfl⟩

/-- Station 7 heard 6,000 s ago, with a hold and a restock entry. -/
def peerSeven (x : PeerState) : State :=
  { running with
    peers := { running.peers with
      table := running.peers.table.set 6
        { Peer.reset with state := x, epoch := some 5, last := some 12, heard := some 86406300 } }
    allowance := { running.allowance with holds := [⟨7, 4117, 500000, 86412300⟩] }
    stock := { running.stock with queue := [⟨7, 100, 86410500⟩] } }

/-- The same, the own request active with its entry kept out of the queue. -/
def ownOutside : State :=
  { peerSeven .active with stock := { (peerSeven .active).stock with
      active := true, displacedMark := true, ownFraction := 250 } }

/-- R141: the own entry is offered again as another goes. -/
theorem test_offered_again :
    (after (.restockEntryAgeing 7) ownOutside).stock.queue = [⟨3, 250, 86412300⟩] := by decide +kernel

/-- R77: no hold is present past its expiry. -/
theorem test_no_past_hold :
    (after .siteTimeTick (peerSeven .active)).allowance.holds = [] := by decide +kernel

theorem witness_PeersHoldsAndEntriesGoInTime :
    (ownOutside.stock.active = true ∧ ownOutside.stock.displacedMark = true ∧
      ownOutside.stock.queue.length ≤ 16 ∧ ⟨7, 100, 86410500⟩ ∈ ownOutside.stock.queue) ∧
    (⟨7, 100, 86410500⟩ ∈ (peerSeven .active).stock.queue ∧
      7 ≠ (peerSeven .active).params.stationId ∧
      86410500 + 3 * (peerSeven .active).params.period ≤ (peerSeven .active).now ∧
      (peerSeven .active).stock.active = false) ∧
    ((peerSeven .active).started = true ∧ ((peerSeven .active).peer 7).heard = some 86406300 ∧
      ((peerSeven .active).peer 7).state = .active ∧
      86406300 + 10 * (peerSeven .active).params.period ≤ (peerSeven .active).now ∧
      ((peerSeven .silent).peer 7).state = .silent) :=
  ⟨⟨rfl, rfl, by decide, by decide⟩, ⟨by decide, by decide, by decide, rfl⟩, rfl, rfl, rfl, by decide, rfl⟩

/-! ### Witnesses: the site link -/

/-- A queue whose head has busy findings, a second bulletin behind it. -/
def busyHead (busy : Nat) (urgent : Bool) (tx : TxState) : State :=
  withLink (fun l => { l with
    queue := [⟨⟨0x1234, 3, 1, 0, 1999, .bayDone⟩, busy, urgent, 0⟩,
      ⟨⟨0x1234, 3, 1, 1, 1999, .bayDone⟩, 0, false, 0⟩] }) (queued 0 tx)

/-- R97, R98: the eighth busy finding drops the bulletin, and the next meets the carrier at once; the end of
a transmission begins the next attempt. -/
theorem test_busy_drop :
    (let t := (after .carrierAppears (busyHead 7 false .quiet)).link
     (t.queue.map (fun q => (q.bulletin.seq, q.busy)), t.counters.dropped, t.counters.busy, t.tx)) =
        ([(1, 1)], 1, 2, .defer) ∧
      (let t := (after .transmissionEnd (busyHead 0 false .sending)).link
       (t.queue.map (fun q => q.bulletin.seq), t.tx)) = ([1], .quiet) := by decide +kernel

theorem witness_TransmitterFollowsTheCarrier_busy :
    ∀ (busy : Nat) (urgent : Bool) (tx : TxState), ∃ (q x : Queued),
      (busyHead busy urgent tx).link.queue = [q, x] ∧ q.busy = busy ∧ q.urgent = urgent ∧
      x.busy < 7 ∧ (busyHead busy urgent tx).link.tx = tx ∧
      (busyHead busy urgent tx).link.carrier = false ∧ (busyHead busy urgent tx).peers.round = none ∧
      (busyHead busy urgent tx).peers.pendingCount = 0 :=
  fun _ _ _ => ⟨_, _, rfl, rfl, rfl, (by decide : 0 < 7), rfl, rfl, rfl, rfl⟩

theorem witness_TransmitterFollowsTheCarrier :
    ((queued 1 .quiet).link.tx = .quiet ∧
      (queued 1 .quiet).link.queue = [⟨⟨0x1234, 3, 1, 0, 1999, .bayDone⟩, 0, false, 0⟩] ∧
      (queued 1 .quiet).link.carrier = false) ∧
    (queued 1 .backoff).link.tx = .backoff ∧
    ((withLink (fun l => { l with carrier := true }) (queued 1 .defer)).link.tx = .defer ∧
      (withLink (fun l => { l with carrier := true }) (queued 1 .defer)).link.carrier = true) ∧
    ((queued 1 .sending).link.tx = .sending ∧ (queued 1 .sending).peers.round = none ∧
      (queued 1 .sending).peers.pendingCount = 0) :=
  ⟨⟨rfl, rfl, rfl⟩, rfl, ⟨rfl, rfl⟩, rfl, rfl, rfl⟩

/-- A part of the round in progress at the head, sent or at its eighth busy finding; a part of an ended round;
a round due as the queue becomes empty. -/
theorem witness_TransmitterFollowsTheCarrier_round (parts : Nat) (behind : Bool) :
    ((roundAt parts 0 behind false .sending).link.tx = .sending ∧
      (roundAt parts 0 behind false .sending).partOfRound
        ⟨0x1234, 3, 1, 255, 1999, .tally 7 0 parts none [(4117, 9)]⟩ ⟨7, [4117], parts, 1, false⟩) ∧
    ((roundAt parts 7 behind false .quiet).link.tx = .quiet ∧
      (roundAt parts 7 behind false .quiet).link.carrier = false ∧
      (roundAt parts 7 behind false .quiet).partOfRound
        ⟨0x1234, 3, 1, 255, 1999, .tally 7 0 parts none [(4117, 9)]⟩ ⟨7, [4117], parts, 1, false⟩) ∧
    (∀ r : Round, ¬ (roundAt parts 0 behind true .sending).partOfRound
      ⟨0x1234, 3, 1, 255, 1999, .tally 7 0 parts none [(4117, 9)]⟩ r) ∧
    (let s := queued 1 .sending
     let due : State := { s with peers := { s.peers with tallyTimer := true, pendingCount := 1 } }
     due.link.queue.length = 1 ∧ due.peers.round = none ∧ 1 ≤ due.peers.pendingCount ∧
      due.peers.tallyTimer = true) :=
  ⟨⟨rfl, part_of_round parts 0 behind .sending⟩, ⟨rfl, rfl, part_of_round parts 7 behind .quiet⟩,
    (fun _ h => nomatch h.1), rfl, rfl, by decide, rfl⟩

/-- A receive ring of `n` slots with a status, the receiver in FRAME. -/
def ring (n : Nat) (x : FrameStatus) : State :=
  withLink (fun l => { l with
    rx := .frame, tx := .idle, ring := List.replicate n ⟨x, []⟩, carrier := true, jamTimer := true })
    running

/-- A BAY_DONE frame of station 7, its header and body. -/
def frame7 : List Byte := [0x12, 0x34, 7, 0x55, 13, 0, 0, 0x07, 0xCF, 0]

/-- The receiver in FRAME with some characters taken. -/
def inFrame (f : List Byte) : State :=
  withLink (fun l => { l with rx := .frame, tx := .idle, frame := f }) running

/-- R101: the last character ends a frame GOOD or with CRC_ERROR; a length above 240 ends it at once. -/
theorem test_frame_ends :
    (after (.linkCharacterReceived 0x59 true) (inFrame (frame7 ++ [0x5A]))).link.ring =
        [⟨.good, frame7⟩] ∧
      (after (.linkCharacterReceived 0x58 true) (inFrame (frame7 ++ [0x5A]))).link.ring =
        [⟨.crcError, []⟩] ∧
      (after (.linkCharacterReceived 241 true) (inFrame (frame7.take 9))).link.ring =
        [⟨.lengthError, []⟩] := by decide +kernel

theorem witness_ReceiverEndsFramesWithAStatus :
    ((withLink (fun l => { l with rx := .hunt, lastAA := true }) running).link.rx = .hunt ∧
      (withLink (fun l => { l with rx := .hunt, lastAA := true }) running).link.tx ≠ .sending ∧
      (withLink (fun l => { l with rx := .hunt, lastAA := true }) running).link.lastAA = true) ∧
    (∀ f : List Byte, (inFrame f).link.rx = .frame ∧ (inFrame f).link.tx ≠ .sending ∧
      (inFrame f).link.frame = f) ∧
    ((queued 1 .sending).link.tx = .sending ∧ running.link.rx = .off) ∧
    ((withLink (fun l => { l with rx := .frame }) (queued 1 .backoff)).link.rx = .frame ∧
      (withLink (fun l => { l with rx := .frame }) (queued 1 .backoff)).link.tx = .backoff ∧
      (withLink (fun l => { l with rx := .frame }) (queued 1 .backoff)).link.queue ≠ []) ∧
    ((ring 7 .good).link.rx = .frame ∧ (ring 7 .good).link.tx ≠ .sending ∧
      (ring 7 .good).link.ring.length < 8 ∧ ¬ (ring 8 .good).link.ring.length < 8) ∧
    ((ring 0 .good).link.jamTimer = true ∧ (ring 0 .good).link.jammed = false) ∧
    (∀ x : FrameStatus, (ring 1 x).link.ring = [⟨x, []⟩]) ∧ FrameStatus.gapError ≠ .good :=
  ⟨⟨rfl, by decide, rfl⟩, fun _ => ⟨rfl, (by decide : TxState.idle ≠ .sending), rfl⟩, ⟨rfl, rfl⟩,
    ⟨rfl, rfl, by decide⟩, ⟨rfl, by decide, by decide, by decide⟩, ⟨rfl, rfl⟩, fun _ => rfl, by decide⟩

/-- A bulletin of station 7 with a sequence number, a shift and a body. -/
def from7 (seq shift : Nat) (x : BulletinBody) : Bulletin := ⟨0x1234, 7, 5, seq, shift, x⟩

/-- That bulletin in the ring; station 7 in a state at last sequence 12. -/
def heardSeven (x : PeerState) (b : Bulletin) : State :=
  withLink (fun l => { l with ring := [⟨.good, b.encode⟩] }) (peerSeven x)

theorem hears_seven (x : PeerState) (seq shift : Nat) (body : BulletinBody)
    (h : (from7 seq shift body).fits) :
    (heardSeven x (from7 seq shift body)).hears (from7 seq shift body) [] :=
  ⟨h, rfl, rfl, rfl, (by decide : 7 ≠ 3)⟩

/-- A BAY_DONE of station 7. -/
def done7 (seq : Nat) : Bulletin := from7 seq 1999 .bayDone

/-- A good frame in the ring of a machine in a mode whose DUPLICATE_ID is as given. -/
def heardFrame (m : Mode) (duplicate : Bool) (f : List Byte) : State :=
  withLink (fun l => { l with ring := [⟨.good, f⟩], duplicate := duplicate }) (inMode m)

theorem witness_BulletinsAreJudgedByDistance_format :
    (∀ (m : Mode) (d : Bool) (f : List Byte), (heardFrame m d f).link.ring = [⟨.good, f⟩] ∧
      (heardFrame m d f).params.siteCode = 0x1234 ∧ (heardFrame m d f).params.stationId = 3 ∧
      (heardFrame m d f).link.duplicate = d) ∧
    (heardFrame .standby false frame7).started = false ∧
    (10 ≤ frame7.length ∧ ofBe (frame7.take 2) = 0x1234 ∧ wellFormedFrame frame7) ∧
    (ofBe ((frame7.set 1 0x35).take 2) ≠ 0x1234) ∧
    (¬ wellFormedFrame (frame7.set 2 0) ∧ ¬ wellFormedFrame (frame7.set 2 33) ∧
      ¬ wellFormedFrame (frame7.set 3 0x56) ∧ ¬ wellFormedFrame (frame7 ++ [0])) ∧
    (wellFormedFrame (frame7.set 2 3) ∧ ((frame7.set 2 3).getD 2 0).toNat = 3) := by
  refine ⟨fun _ _ _ => ⟨rfl, rfl, rfl, rfl⟩, rfl, ?_, by decide, ?_, ?_⟩ <;>
  simp [wellFormedFrame, frame7, ofBe]

theorem witness_BulletinsAreJudgedByDistance :
    (∀ seq ∈ [12, 13, 139, 140, 11], (heardSeven .silent (done7 seq)).hears (done7 seq) [] ∧
      (done7 seq).shift ≤ (heardSeven .silent (done7 seq)).shiftNo ∧
      (heardSeven .silent (done7 seq)).follows (done7 seq) 12) ∧
    ((done7 12).distance 12 = 0 ∧ (done7 13).distance 12 = 1 ∧ (done7 139).distance 12 = 127 ∧
      (done7 140).distance 12 = 128 ∧ (done7 11).distance 12 = 255) ∧
    ((heardSeven .lost (done7 13)).hears (done7 13) [] ∧
      ((heardSeven .lost (done7 13)).peer (done7 13).station).state = .lost) ∧
    (heardSeven .active (from7 13 2000 .bayDone)).hears (from7 13 2000 .bayDone) [] ∧
      (heardSeven .active (from7 13 2000 .bayDone)).shiftNo < (from7 13 2000 .bayDone).shift := by
  have fits (seq shift : Nat) (h : seq < 256) (h' : shift < 4294967296) :
      (from7 seq shift .bayDone).fits := by
    simp [from7, Bulletin.fits, h, h']
  refine ⟨fun seq h => ⟨hears_seven _ _ _ _ (fits _ _ ?_ (by decide)), (by decide : 1999 ≤ 1999),
    ⟨.inr rfl, rfl, rfl, by decide⟩⟩, by decide,
    ⟨hears_seven _ _ _ _ (fits _ _ (by decide) (by decide)), rfl⟩,
    hears_seven _ _ _ _ (fits _ _ (by decide) (by decide)), (by decide : 1999 < 2000)⟩
  simp only [List.mem_cons, List.not_mem_nil, or_false] at h
  omega

/-- The collections of the view as given. -/
def withView (contributions : Nat) (holds : Nat) (s : State) : State :=
  { s with allowance := { s.allowance with
      contributions := List.replicate contributions ⟨12, 4117, 1⟩
      holds := List.replicate holds ⟨12, 4117, 1, 86412400⟩ } }

/-- An OPEN and a CLOSE of station 7 for a machine. -/
def open7 (fleet : Nat) : Bulletin := from7 14 1999 (.openFill fleet 30000000 600 2)
/-- A CLOSE of station 7 for a machine. -/
def close7 (fleet : Nat) : Bulletin := from7 14 1999 (.closeFill fleet 780000 300000 2)

/-- R75, R73: a hold of at most 20,000,000 mL; refusals at a full list and a full table. -/
theorem test_open_close :
    (after .frameTaken (heardSeven .active (open7 4117))).allowance.holds =
        [⟨7, 4117, 20000000, 86412900⟩] ∧
      (after .frameTaken (withView 0 32 (heardSeven .active (open7 4117)))).allowance.holdRefusals = 1 ∧
      ((after .frameTaken (withView 0 32 (heardSeven .active (open7 4117)))).peer 7).g = 2 ∧
      (after .frameTaken (heardSeven .active (close7 4117))).allowance =
        { running.allowance with contributions := [⟨7, 4117, 780000⟩] } ∧
      (after .frameTaken (heardSeven .active (open7 9999))).allowance.unknownFleet = 1 := by
  decide +kernel

theorem witness_OpenAndCloseAreAbsorbed :
    (∀ fleet < 65536, (heardSeven .active (open7 fleet)).hears (open7 fleet) [] ∧
      (heardSeven .active (close7 fleet)).hears (close7 fleet) [] ∧
      (open7 fleet).shift ≤ (heardSeven .active (open7 fleet)).shiftNo ∧
      (heardSeven .active (open7 fleet)).follows (open7 fleet) 12 ∧
      (heardSeven .active (close7 fleet)).follows (close7 fleet) 12) ∧
    ((open7 4117).distance 12 = 2 ∧ (close7 4117).distance 12 = 2) ∧
    (heardSeven .active (from7 14 1998 (.openFill 4117 0 0 1))).hears
        (from7 14 1998 (.openFill 4117 0 0 1)) [] ∧
    (withView 512 32 (heardSeven .active (open7 4117))).hears (open7 4117) [] ∧
    (withView 512 32 (heardSeven .active (close7 4117))).hears (close7 4117) [] := by
  refine ⟨fun fleet h => ⟨hears_seven _ _ _ _ ?_, hears_seven _ _ _ _ ?_, (by decide : 1999 ≤ 1999),
    ⟨.inl rfl, rfl, rfl, by decide⟩, ⟨.inl rfl, rfl, rfl, by decide⟩⟩, by decide,
    hears_seven _ _ _ _ ?_, ⟨?_, rfl, rfl, rfl, (by decide : 7 ≠ 3)⟩,
    ⟨?_, rfl, rfl, rfl, (by decide : 7 ≠ 3)⟩⟩ <;>
  simp [from7, open7, close7, Bulletin.fits] <;> omega

/-- Station 7 ACTIVE or SILENT under another epoch, or UNKNOWN or LOST. -/
def otherEpoch (x : PeerState) (b : Bulletin) : State :=
  let s := heardSeven x b
  { s with peers := { s.peers with
      table := s.peers.table.set 6 { s.peer 7 with epoch := some 6 } } }

/-- An entry followed, one UNKNOWN or LOST, and one under another epoch each accept a bulletin. -/
theorem witness_OpenAndCloseAreAbsorbed_accepts (b : Bulletin) (h : b = open7 4117 ∨ b = close7 4117) :
    (heardSeven .active b).accepts b ((heardSeven .active b).accepted b 2)
        (heardSeven .active b).allowance ∧
      (heardSeven .unknown b).meetsAfresh b ∧ ¬ (heardSeven .unknown b).knows b ∧
      (heardSeven .lost b).meetsAfresh b ∧ ¬ (heardSeven .lost b).knows b ∧
      (otherEpoch .active b).meetsAfresh b ∧ (otherEpoch .active b).knows b ∧
      (otherEpoch .silent b).meetsAfresh b ∧ (otherEpoch .silent b).knows b := by
  rcases h with rfl | rfl <;>
  exact ⟨.inl ⟨12, ⟨.inl rfl, rfl, rfl, by decide⟩, by decide, by decide, rfl, rfl⟩, .inl rfl,
    (by decide : ¬ (PeerState.unknown = .active ∨ PeerState.unknown = .silent)), .inr (.inl rfl),
    (by decide : ¬ (PeerState.lost = .active ∨ PeerState.lost = .silent)),
    .inr (.inr (by decide : some 6 ≠ some 5)), .inl rfl, .inr (.inr (by decide : some 6 ≠ some 5)),
    .inr rfl⟩

/-- R111, R113: an OPEN that starts its sender's entry afresh is absorbed, the old hold gone. -/
theorem test_fresh_open :
    (let t := after .frameTaken (otherEpoch .active (open7 4117))
     (t.allowance.holds, (t.peer 7).g, t.peers.epochChanges, t.stock.queue)) =
      ([⟨7, 4117, 20000000, 86412900⟩], 15, 1, []) := by decide +kernel

/-- A TALLY part of station 7. -/
def tally7 (i n : Nat) (fr : Option Nat) : Bulletin :=
  from7 13 1999 (.tally 9 i n fr [(4117, 500000), (9999, 1)])

/-- A full restock queue, its last entry at fraction 500. -/
def fullQueue (s : State) : State :=
  { s with stock := { s.stock with
      queue := (List.range 16).map (fun i => ⟨i + 9, if i = 15 then 500 else 100, 86412000⟩) } }

/-- R114, R72, R142, R143: a round of one part completes; its report and fraction are taken; at a full
queue the last entry goes. -/
theorem test_tally :
    (let t := after .frameTaken (heardSeven .active (tally7 0 1 (some 2000)))
     ((t.peer 7).complete, (t.peer 7).mask, t.allowance.contributions, t.allowance.unknownFleet,
       t.stock.queue)) = (true, 1, [⟨7, 4117, 500000⟩], 1, [⟨7, 1000, 86412300⟩]) ∧
      (let t := after .frameTaken (fullQueue (heardSeven .active (tally7 0 1 (some 50))))
       (t.stock.queue.head?, t.stock.queue.length, t.stock.displaced)) =
        (some ⟨7, 50, 86412300⟩, 16, 1) ∧
      (after .frameTaken (fullQueue (heardSeven .active (from7 13 1999 (.bayAsk 900))))).stock.refused =
        1 := by decide +kernel

theorem witness_TalliesAndFractionsAreTaken :
    ((heardSeven .active (tally7 0 14 none)).hears (tally7 0 14 none) [] ∧
      (heardSeven .active (tally7 13 14 (some 65534))).hears (tally7 13 14 (some 65534)) [] ∧
      (heardSeven .active (tally7 0 14 none)).follows (tally7 0 14 none) 12 ∧
      (tally7 0 14 none).distance 12 = 1 ∧
      (heardSeven .active (tally7 0 14 none)).allowance.contributions.length + 2 ≤ 512 ∧
      (heardSeven .active (tally7 0 14 none)).stock.active = false) ∧
    ((heardSeven .active (from7 13 1999 (.bayAsk 900))).hears (from7 13 1999 (.bayAsk 900)) [] ∧
      (heardSeven .active (from7 13 1999 (.bayAsk 900))).stock.queue.any (fun e => e.station == 7) =
        true) ∧
    ((fullQueue (heardSeven .active (from7 13 1999 (.bayAsk 900)))).hears
        (from7 13 1999 (.bayAsk 900)) [] ∧
      (fullQueue running).stock.queue.length ≤ 16 ∧
      (fullQueue running).stock.queue.Pairwise (fun x y => x.fraction < y.fraction ∨
        (x.fraction = y.fraction ∧ x.station < y.station))) := by
  refine ⟨⟨hears_seven _ _ _ _ ?_, hears_seven _ _ _ _ ?_, ⟨.inl rfl, rfl, rfl, by decide⟩, by decide,
    by decide, rfl⟩, ⟨hears_seven _ _ _ _ ?_, by decide⟩,
    ⟨?_, rfl, rfl, rfl, (by decide : 7 ≠ 3)⟩, by decide, by decide +kernel⟩ <;>
  simp [from7, Bulletin.fits]

/-- A TALLY part and a BAY_ASK of a station whose entry starts afresh. -/
theorem witness_TalliesAndFractionsAreTaken_afresh :
    ∀ b ∈ [tally7 0 1 (some 2000), from7 13 1999 (.bayAsk 900)],
      (heardSeven .unknown b).meetsAfresh b ∧ (otherEpoch .active b).meetsAfresh b ∧
      (otherEpoch .active b).knows b := by
  simp only [List.forall_mem_cons]
  refine ⟨⟨.inl rfl, .inr (.inr (by decide : some 6 ≠ some 5)), .inl rfl⟩,
    ⟨.inl rfl, .inr (.inr (by decide : some 6 ≠ some 5)), .inl rfl⟩, fun _ h => (List.not_mem_nil h).elim⟩

/-! ### Witnesses: time, metrology -/

/-- One second before the clock shift goes to 2,000. -/
def beforeShift : State := { running with peers := { running.peers with siteTime := some 86421599 } }

theorem witness_TimeAdvancesShiftsAndTallies :
    (beforeShift.peers.siteTime = some 86421599 ∧ beforeShift.started = true ∧
      clockShift beforeShift.params.shiftStarts (min 4294967295 (86421599 + 1)) > beforeShift.shiftNo ∧
      beforeShift.freeSlots ≠ 0) ∧
    (running.peers.siteTime = some 86412300 ∧
      ¬ clockShift running.params.shiftStarts (min 4294967295 (86412300 + 1)) > running.shiftNo) :=
  ⟨⟨rfl, rfl, by decide +kernel, by decide +kernel⟩, rfl, by decide +kernel⟩

/-- P1 delivering, its open-preset entry standing, one second before the shift. -/
def openAtShift : State :=
  { flowing with
    peers := beforeShift.peers
    allowance := { flowing.allowance with openPresets := [⟨0, 4117, 19500⟩] } }

/-- R89, R120: after a rollover the OPEN of a delivery now open is queued again. -/
theorem test_rollover_open :
    ((after .siteTimeTick openAtShift).link.queue.map (fun x => (x.bulletin.shift, x.bulletin.body))) =
      [(2000, .openFill 4117 19500 600 1)] := by decide +kernel

/-- A rollover at an empty queue, with an own delivery open. -/
theorem witness_TimeAdvancesShiftsAndTallies_rollover :
    openAtShift.peers.siteTime = some 86421599 ∧ openAtShift.started = true ∧
      clockShift openAtShift.params.shiftStarts (min 4294967295 (86421599 + 1)) > openAtShift.shiftNo ∧
      openAtShift.link.queue = [] ∧ openAtShift.peers.round = none ∧
      openAtShift.peers.pendingCount = 0 := ⟨rfl, rfl, by decide +kernel, rfl, rfl, rfl⟩

/-- The tally timer running, `n` periods pending, a bulletin in the queue. -/
def tallyRuns (n : Nat) : State :=
  { queued 1 .defer with
    peers := { running.peers with tallyTimer := true, pendingCount := n, warmUp := true } }

theorem witness_TimeAdvancesShiftsAndTallies_timer :
    (tallyRuns 2).peers.tallyTimer = true ∧ 2 ≤ (tallyRuns 2).peers.pendingCount ∧
      (tallyRuns 2).link.queue.length < 8 ∧
      (tallyRuns 1).peers.pendingCount ≤ 1 ∧ (tallyRuns 1).link.queue ≠ [] ∧
    (let s : State := { running with peers := { running.peers with
       tallyTimer := true, round := some ⟨7, [4117], 2, 1, false⟩ } }
     s.peers.tallyTimer = true ∧ s.peers.pendingCount ≤ 1 ∧ s.link.queue = [] ∧ s.peers.round ≠ none) :=
  ⟨rfl, by decide, by decide, by decide, by decide, rfl, by decide, rfl, by decide⟩

/-- The same with an empty queue, one machine with an own total. -/
def roundDue : State :=
  { running with
    allowance := { running.allowance with own := [(4117, 9)] }
    peers := { running.peers with tallyTimer := true, pendingCount := 1, warmUp := true } }

/-- R122, R123, R124: a normal round starts at once, its first part queued. -/
theorem test_round :
    (let t := after .tallyTimerExpiry roundDue
     (t.peers.round.map (·.list), t.peers.pendingCount, t.link.queue.map (·.bulletin.body))) =
      (some [4117], 0, [.tally 0 0 1 none [(4117, 9)]]) := by decide +kernel

theorem witness_TimeAdvancesShiftsAndTallies_round :
    roundDue.peers.tallyTimer = true ∧ roundDue.peers.pendingCount ≤ 1 ∧ roundDue.link.queue = [] ∧
      roundDue.peers.round = none := ⟨rfl, by decide, rfl, rfl⟩

/-- A check in progress; the sound image in force, its code the running reference, and the values in use
those given. -/
def checking (v : Params) : State :=
  { flowing with
    params := v
    rm := { flowing.rm with areaA := image, selector := some .a }
    metrology := { flowing.metrology with checking := true, reference := some 0x812AB071 } }

set_option maxRecDepth 100000 in
theorem image_code : crc32 (Mem.readBytes image 16 383) = 0x812AB071 := by decide +kernel

theorem image_values : (checking (readParams image)).workingSection = Mem.readBytes image 16 383 := by
  decide +kernel

/-- PARKED with the check timer at its end. -/
def timerEnded : State :=
  { inMode .parked with metrology := { (inMode .parked).metrology with timer := some 0 } }

theorem witness_MetrologyMismatchHalts :
    (running.mode = .run ∧ running.metrology.timer = some (3599 + 1) ∧
      timerEnded.mode = .parked ∧ timerEnded.metrology.timer = some 0) ∧
    (∀ v : Params, (checking v).mode = .run ∧ (checking v).metrology.checking = true) ∧
    ((checking (readParams image)).metrology.reference =
        some ((checking (readParams image)).checkCodes 0).stored ∧
      ((checking (readParams image)).checkCodes 0).memory =
        ((checking (readParams image)).checkCodes 0).stored ∧
      ((checking (readParams image)).checkCodes 0).working =
        ((checking (readParams image)).checkCodes 0).stored) ∧
    ((checking (readParams image)).rm.readAgain [(16, 1)]).areaA ≠ image := by
  have stored : ((checking (readParams image)).checkCodes 0).stored = 0x812AB071 := by decide +kernel
  have working : ((checking (readParams image)).checkCodes 0).working = 0x812AB071 := by
    simp only [State.checkCodes, image_values, image_code]
    rfl
  refine ⟨⟨rfl, rfl, rfl, rfl⟩, fun v => ⟨rfl, rfl⟩, ⟨?_, ?_, ?_⟩, by decide +kernel⟩
  · rw [stored]
    rfl
  · rw [stored]
    exact image_code
  · rw [working, stored]

end Sys2Proof.Tests
end

