-- ==== Sys2Proof/Proofs/Switches.lean ====
section
/-! SUPPORT. The debouncing of the switch inputs (R1, R2), with the settlement of O35. -/

namespace Sys2Proof.Machine

/-! ### Switch debouncing (R1, R2) -/

/-- An unsettled input settles at the third sample of a run (R2). -/
theorem Debounce.sample_unsettled (need : Nat) (v : Bool) {d : Debounce} (hd : d.value = none) :
    d.sample need v =
      if d.runOf v ≥ 3 then (⟨some v, some v, d.runOf v⟩, some (.initial v))
      else (⟨none, some v, d.runOf v⟩, none) := by
  unfold Debounce.sample
  rw [hd]

/-- A settled input changes at the last sample of the needed run, and forgets a run that breaks off
(R1). -/
theorem Debounce.sample_settled (need : Nat) (v : Bool) {d : Debounce} {x : Bool}
    (hd : d.value = some x) :
    d.sample need v =
      if v = x then (⟨some x, none, 0⟩, none)
      else if d.runOf v ≥ need then (⟨some v, some v, d.runOf v⟩, some (.change v))
      else (⟨some x, some v, d.runOf v⟩, none) := by
  unfold Debounce.sample
  rw [hd]

/-- A sample brings the debounced value to what it reports, and leaves it where it reports nothing. -/
theorem Debounce.sample_value (need : Nat) (d : Debounce) (v : Bool) :
    (d.sample need v).1.value = ((d.sample need v).2.map SwitchEvent.value).or d.value := by
  cases hd : d.value with
  | none =>
    rw [Debounce.sample_unsettled need v hd]
    split <;> rfl
  | some x =>
    rw [Debounce.sample_settled need v hd]
    split
    · rfl
    · split <;> rfl

theorem Debounce.sample_value_of_quiet {need : Nat} {d : Debounce} {v : Bool}
    (h : (d.sample need v).2 = none) : (d.sample need v).1.value = d.value := by
  rw [Debounce.sample_value, h]
  rfl

theorem Debounce.sample_value_of_event {need : Nat} {d : Debounce} {v : Bool} {e : SwitchEvent}
    (h : (d.sample need v).2 = some e) : (d.sample need v).1.value = some e.value := by
  rw [Debounce.sample_value, h]
  rfl

/-- A run of `n` samples at the level that a settled input does not show. -/
def Debounce.counting (x v : Bool) (n : Nat) : Debounce :=
  if n = 0 then ⟨some x, none, 0⟩ else ⟨some x, some v, n⟩

theorem Debounce.counting_value (x v : Bool) (n : Nat) :
    (Debounce.counting x v n).value = some x := by
  unfold Debounce.counting
  split <;> rfl

theorem Debounce.counting_runOf (x v : Bool) (n : Nat) :
    (Debounce.counting x v n).runOf v = n + 1 := by
  by_cases hn : n = 0 <;> simp [Debounce.counting, Debounce.runOf, hn]

/-- A sample short of the needed run lengthens the run and reports nothing. -/
theorem Debounce.sample_counting_short {need n : Nat} {x v : Bool} (hv : v ≠ x) (hn : n + 1 < need) :
    (Debounce.counting x v n).sample need v = (Debounce.counting x v (n + 1), none) := by
  have short : ¬ n + 1 ≥ need := by omega
  rw [Debounce.sample_settled need v (Debounce.counting_value x v n), if_neg hv,
    Debounce.counting_runOf, if_neg short]
  rfl

/-- The sample that completes the needed run reports the change. -/
theorem Debounce.sample_counting_last {need n : Nat} {x v : Bool} (hv : v ≠ x) (hn : n + 1 = need) :
    ((Debounce.counting x v n).sample need v).2 = some (.change v) := by
  rw [Debounce.sample_settled need v (Debounce.counting_value x v n), if_neg hv,
    Debounce.counting_runOf, if_pos (Nat.le_of_eq hn.symm)]

/-- Fewer samples than are needed leave a settled input counting. -/
theorem Debounce.repeat_sample_counting {need : Nat} {x v : Bool} (hv : v ≠ x) :
    ∀ n : Nat, n < need →
      Nat.repeat (fun d : Debounce => (d.sample need v).1) n ⟨some x, none, 0⟩ =
        Debounce.counting x v n
  | 0, _ => rfl
  | n + 1, hn => by
    rw [Nat.repeat, Debounce.repeat_sample_counting hv n (by omega),
      Debounce.sample_counting_short hv hn]

theorem Scanner.sample_points (need : Nat) (x : Scanner) (l : SwitchLevels) (p : PointId) :
    (x.sample need l).points[p] = (x.points[p].sample need l.points[p]).1 :=
  match p with
  | 0 => rfl
  | 1 => rfl
  | 2 => rfl
  | 3 => rfl

/-- A sample without a report finds no event at any of the seven inputs. -/
theorem Scanner.reports_nil_iff (need : Nat) (x : Scanner) (l : SwitchLevels) :
    x.reports need l = [] ↔
      (∀ p : PointId, (x.points[p].sample need l.points[p]).2 = none) ∧
        (x.brake.sample need l.brake).2 = none ∧ (x.estop.sample need l.estop).2 = none ∧
        (x.cal.sample need l.cal).2 = none := by
  simp [Scanner.reports, List.filterMap_eq_nil_iff]

/-- A report of CAL is an event of the CAL input. -/
theorem Scanner.cal_event_of_reports {need : Nat} {x : Scanner} {l : SwitchLevels} {e : SwitchEvent}
    (h : x.reports need l = [.cal e]) : (x.cal.sample need l.cal).2 = some e := by
  have mem : SwitchReport.cal e ∈ x.reports need l := by simp [h]
  simpa [Scanner.reports] using mem

/-- A powered controller samples its inputs and delivers the reports of the sample. -/
theorem switchSample_of_powered {s : State} (l : SwitchLevels) (h : s.powered = true) :
    switchSample l s = deliverAll (s.scanner.reports s.runNeeded l)
      (s.setScanner (s.scanner.sample s.runNeeded l)) := by
  simp [switchSample, h]

/-- Settles O35: a run of samples is counted up to the one that completes it (R1, R2); without a report only
the scanner changes, and a report of CAL goes to the Metrology Check Unit (R4). -/
theorem switchesAreDebounced : Obligations.SwitchesAreDebounced := by
  unfold Obligations.SwitchesAreDebounced
  refine ⟨?change, ?quiet, ?settling, ?cal⟩
  case change =>
    intro need x v h1 hv
    refine ⟨fun n hn => ?_, ?_, fun n hn => ?_⟩
    · rw [Debounce.repeat_sample_counting hv n hn, Debounce.counting_value]
    · rw [Debounce.repeat_sample_counting hv _ (by omega)]
      exact Debounce.sample_counting_last hv (by omega)
    · rw [Debounce.repeat_sample_counting hv n (by omega), Debounce.sample_counting_short hv hn]
  case quiet =>
    intro s levels hp hr
    obtain ⟨points, brake, estop, cal⟩ := (Scanner.reports_nil_iff _ _ _).1 hr
    have sampled : switchSample levels s = s.setScanner (s.scanner.sample s.runNeeded levels) := by
      rw [switchSample_of_powered levels hp, hr, deliverAll]
    refine ⟨drive (switchSample levels s), rfl, ?_⟩
    rw [sampled]
    refine ⟨fun p => ?_, Debounce.sample_value_of_quiet brake, Debounce.sample_value_of_quiet estop,
      Debounce.sample_value_of_quiet cal, ⟨fun p => Scanner.sample_points _ _ _ p, rfl, rfl, rfl⟩,
      (setScanner_frame _ s).driven⟩
    show (s.scanner.sample s.runNeeded levels).points[p].value = s.scanner.points[p].value
    rw [Scanner.sample_points]
    exact Debounce.sample_value_of_quiet (points p)
  case settling =>
    intro need v d hd hrun
    have first : d.sample need v = (⟨none, some v, 1⟩, none) := by
      simp [Debounce.sample_unsettled need v hd, Debounce.runOf, hrun]
    have second : (⟨none, some v, 1⟩ : Debounce).sample need v = (⟨none, some v, 2⟩, none) := by
      simp [Debounce.sample, Debounce.runOf]
    have third : (⟨none, some v, 2⟩ : Debounce).sample need v =
        (⟨some v, some v, 3⟩, some (.initial v)) := by
      simp [Debounce.sample, Debounce.runOf]
    refine ⟨fun n hn => ?_, ?_, ?_⟩
    · match n, hn with
      | 0, _ => simp [Nat.repeat, first]
      | 1, _ => simp [Nat.repeat, first, second]
    · simp [Nat.repeat, first, second, third]
    · simp [Nat.repeat, first, second, third]
  case cal =>
    intro s levels e hp hr
    have sampled : switchSample levels s =
        (s.setScanner (s.scanner.sample s.runNeeded levels)).setMetrology
          { s.metrology with cal := some e.value } := by
      rw [switchSample_of_powered levels hp, hr, deliverAll, deliver]
      rfl
    refine ⟨drive (switchSample levels s), rfl, ?_⟩
    rw [sampled]
    exact ⟨rfl, Debounce.sample_value_of_event (Scanner.cal_event_of_reports hr),
      ((setScanner_frame _ s).trans (setMetrology_frame _ _)).driven⟩

end Sys2Proof.Machine
end

