-- ==== Sys2Proof/Proofs/Points.lean ====
section
/-! SUPPORT. What a frame leaves of a point, the power of its tag line (R5), a refusal and an end
read off the state they leave, and the operations that keep the assembler empty. -/

namespace Sys2Proof.Machine

/-! ### What a frame leaves of a point -/

theorem role_of_frame {l : List Part} {s t : State} (h : onlyChanges l s t)
    (h1 : Part.params ∉ l := by simp) (p : PointId) : t.role p = s.role p := by
  have params : t.params = s.params := h.2 .params h1
  simp only [State.role, State.pp, params]

/-- A point that a frame leaves out is as it was, but for its valve stage. -/
theorem point_of_frame {l : List Part} {s t : State} (h : onlyChanges l s t) (p : PointId)
    (h1 : Part.point p ∉ l := by simp) :
    t.point p = { s.point p with valve := (t.point p).valve } := by
  have same : { t.point p with valve := .closed } = { s.point p with valve := .closed } :=
    h.2 (.point p) h1
  have valve := congrArg (fun x : Point => { x with valve := (t.point p).valve }) same
  exact valve

theorem ctx_of_frame {l : List Part} {s t : State} (h : onlyChanges l s t) (p : PointId)
    (h1 : Part.point p ∉ l := by simp) : (t.point p).ctx = (s.point p).ctx := by
  rw [point_of_frame h p h1]

theorem priceFor_of_frame {l : List Part} {s t : State} (h : onlyChanges l s t)
    (h1 : Part.params ∉ l := by simp) (h2 : Part.prices ∉ l := by simp) (p : PointId) :
    t.priceFor p = s.priceFor p := by
  have params : t.params = s.params := h.2 .params h1
  obtain ⟨current, -⟩ := h.2 .prices h2
  simp only [State.priceFor, State.productAt, State.cp, State.compartmentOf, State.pp, params, current]

/-! ### Tag lines and their points (R5) -/

section
variable {s : State}

/-- The tag line of a point that has come to a state in a mode: as it is while its power stays, else
repowered (R5). -/
def TagLine.follow (m : Mode) (x : PointState) (l : TagLine) : TagLine :=
  if l.powered = linePowered m x then l else l.repower (linePowered m x)

theorem powerLine_line (p : PointId) :
    (powerLine p s).line p = (s.line p).follow s.mode (s.point p).state := by
  unfold powerLine TagLine.follow
  dsimp only
  split
  · rfl
  · simp

theorem putPoint_line (p : PointId) (x : Point) :
    (putPoint p x s).line p = (s.line p).follow s.mode x.state := by
  simp [putPoint, powerLine_line]

/-- In RUN a powered line stays as it is while its point is in use. -/
theorem TagLine.follow_of_powered {l : TagLine} {x : PointState} (hl : l.powered = true)
    (hx : linePowered .run x = true) : l.follow .run x = l := by
  simp [TagLine.follow, hl, hx]

/-- A line follows a second state that asks for the same power as the first to the same end. -/
theorem TagLine.follow_follow {m : Mode} {x y : PointState} (l : TagLine)
    (h : linePowered m x = linePowered m y) : (l.follow m x).follow m y = l.follow m y := by
  unfold TagLine.follow
  rw [h]
  by_cases hl : l.powered = linePowered m y
  · simp [hl]
  · simp [hl, TagLine.repower]

/-- An ABSENT line stays ABSENT whatever its power does. -/
theorem TagLine.follow_absent {l : TagLine} (m : Mode) (x : PointState) (h : l.presence = .absent) :
    (l.follow m x).presence = .absent := by
  unfold TagLine.follow
  split
  · exact h
  · rfl

/-- With no frame in assembly none is in assembly whatever the line's power does. -/
theorem TagLine.follow_frame {l : TagLine} (m : Mode) (x : PointState) (h : l.frame = []) :
    (l.follow m x).frame = [] := by
  unfold TagLine.follow
  split
  · exact h
  · rfl

/-- A refusal of a point that waits, read off the state it leaves. -/
theorem enterRefused_waits_result {p : PointId} (r : RefusalReason) (c : FillContext)
    (h : s.waits p) :
    ((enterRefused p r c s).point p).state = .refused ∧
      ((enterRefused p r c s).point p).ctx = { c with refusal := some r } ∧
      (enterRefused p r c s).port.attention.points[p] = some (.refused r) := by
  rw [enterRefused_waits p r c h]
  simp [raisePoint]

/-- The point enters CLOSING with the end reason and its two closing timers (R32). -/
theorem enterClosing_closingWith (p : PointId) (e : EndCause) : (enterClosing p e s).closingWith p e := by
  simp [State.closingWith, enterClosing]

theorem State.closingWith.driven {p : PointId} {e : EndCause} (h : s.closingWith p e) :
    (drive s).closingWith p e := by
  simpa [State.closingWith] using h

end

/-! ### The frame in assembly -/

/-- No tag frame is in assembly on the line of a point. -/
def State.noFrame (s : State) (p : PointId) : Prop := (s.line p).frame = []

section
variable {s t : State} {p : PointId}

theorem State.noFrame.of_frame {l : List Part} (hs : s.noFrame p) (h : onlyChanges l s t)
    (h1 : Part.line p ∉ l := by simp) : t.noFrame p := by
  have line : t.line p = s.line p := h.2 (.line p) h1
  rw [State.noFrame, line]
  exact hs

theorem State.noFrame.putPoint (hs : s.noFrame p) (x : Point) :
    (Machine.putPoint p x s).noFrame p := by
  rw [State.noFrame, putPoint_line]
  exact TagLine.follow_frame _ _ hs

theorem State.noFrame.enterIdle (hs : s.noFrame p) : (Machine.enterIdle p s).noFrame p := by
  have put := hs.putPoint { Point.reset with valve := (s.point p).valve }
  unfold Machine.enterIdle checkPark
  split
  · exact put.of_frame (takePark_frame (l := [.mode, .park, .scanner]) _)
  · exact put

theorem State.noFrame.enterRefused (hs : s.noFrame p) (r : RefusalReason) (c : FillContext) :
    (Machine.enterRefused p r c s).noFrame p := by
  have raised : (raisePoint p (.refused r) (Machine.putPoint p
      { s.point p with state := .refused, timers := .stopped, ctx := { c with refusal := some r } }
        s)).noFrame p :=
    (hs.putPoint _).of_frame (raisePoint_frame (l := [.attention]) p _ _)
  unfold Machine.enterRefused settleAtRest
  split
  · exact raised.enterIdle
  · exact raised

end

end Sys2Proof.Machine
end

