-- ==== Sys2Proof/Proofs/Opening.lean ====
section
/-! SUPPORT. The opening of a fill (R26) in four steps, each with its frame, and the state it leaves. -/

namespace Sys2Proof.Machine

section
variable {s : State}
/-! ### The opening of a fill (R26, R152) -/

/-- The context of a point as its fill opens: a delivery latches its price, and the slot and the seq of the
OPEN record are noted. -/
def State.openedCtx (s : State) (p : PointId) : FillContext :=
  { (s.point p).ctx with
    price := if s.role p = .receipt then (s.point p).ctx.price else some (s.priceFor p)
    slot := some s.journal.writePosition
    seq := some s.journal.nextSeq }

/-- The OPEN record of a fill that opens. -/
def State.openedRecord (s : State) (p : PointId) : Record :=
  s.newRecord false (.fill (s.role p == .receipt)
    { s.openRecord p with price := (s.openedCtx p).price })

/-- The OPEN record of a point stands in the slot at the write position, the ring one longer, the next seq
one up, every other slot as it was. -/
structure OpenRecorded (p : PointId) (s t : State) : Prop where
  held : t.journal.held = s.journal.held + 1
  nextSeq : t.journal.nextSeq = s.journal.nextSeq + 1
  setAside : t.journal.setAside = s.journal.setAside - 1
  record : slotAt t.rm.slots s.journal.writePosition = some ⟨true, s.openedRecord p⟩
  others : ∀ k, k ≠ s.journal.writePosition → slotAt t.rm.slots k = slotAt s.rm.slots k

/-- What is done after the OPEN record is written leaves it written. -/
theorem OpenRecorded.of_frame {l : List Part} {p : PointId} {s t u : State} (h : OpenRecorded p s t)
    (f : onlyChanges l t u) (h1 : Part.ring ∉ l := by simp) (h2 : Part.rm ∉ l := by simp) :
    OpenRecorded p s u := by
  obtain ⟨_, held, nextSeq, setAside, _⟩ := f.2 .ring h1
  have rm : u.rm = t.rm := f.2 .rm h2
  exact ⟨held.trans h.held, nextSeq.trans h.nextSeq, setAside.trans h.setAside, rm ▸ h.record,
    rm ▸ h.others⟩

theorem appendOpen_rm (body : RecordBody) :
    slotAt (appendOpen body s).rm.slots s.journal.writePosition = some ⟨true, s.newRecord false body⟩ ∧
      ∀ k, k ≠ s.journal.writePosition →
        slotAt (appendOpen body s).rm.slots k = slotAt s.rm.slots k := by
  obtain ⟨rm, -⟩ := judgeJournal_ring (s := (appendRecord false body s).setJournal
    { (appendRecord false body s).journal with
      setAside := (appendRecord false body s).journal.setAside - 1 })
  obtain ⟨record, others, -⟩ := appendRecord_eq (s := s) false body
  simp only [appendOpen, rm]
  exact ⟨record, others⟩

theorem appendOpen_journal (body : RecordBody) :
    (appendOpen body s).journal.held = s.journal.held + 1 ∧
      (appendOpen body s).journal.nextSeq = s.journal.nextSeq + 1 ∧
      (appendOpen body s).journal.setAside = s.journal.setAside - 1 := by
  obtain ⟨-, -, held, nextSeq, setAside⟩ :=
    judgeJournal_ring (s := (appendRecord false body s).setJournal
      { (appendRecord false body s).journal with
        setAside := (appendRecord false body s).journal.setAside - 1 })
  exact ⟨held, nextSeq, setAside⟩

/-- The first step of an opening: a delivery's price is latched (R26). -/
def latchPrice (p : PointId) (s : State) : State :=
  if s.role p == .receipt then s else s.modCtx p (fun c => { c with price := some (s.priceFor p) })

/-- The second step of an opening: the OPEN record is written, and its slot and seq are noted (R26, R152). -/
def writeOpen (p : PointId) (s : State) : State :=
  (dropCheckpoints p (appendOpen (.fill (s.role p == .receipt) (s.openRecord p)) s)).modCtx p
    (fun c => { c with slot := some s.journal.writePosition, seq := some s.journal.nextSeq })

/-- The third step of an opening: a delivery's OPEN bulletin is queued (R89). -/
def announceOpen (p : PointId) (s : State) : State :=
  if s.role p == .receipt then s
  else queueBulletin (.openFill (((s.point p).ctx.machine.map RosterRecord.fleet).getD 0)
    ((s.point p).ctx.preset.getD 0) s.params.maxFill (pointNo p)) s

/-- The last steps of an opening: PRIMING, the channel started, the quiet timer stopped (R26, R138). -/
def startFlow (p : PointId) (s : State) : State :=
  stopQuiet (s.compartmentOf p) ((enterPriming p s).setMeter p
    ((enterPriming p s).targetsAt p ((enterPriming p s).meter p).open))

theorem latchPrice_frame {l : List Part} (p : PointId) (s : State)
    (h1 : Part.point p ∈ l := by first | assumption | simp) : onlyChanges l s (latchPrice p s) :=
  (onlyChanges_refl _ _).ite (modCtx_frame p _ s)

theorem writeOpen_frame {l : List Part} (p : PointId) (s : State)
    (h1 : Part.point p ∈ l := by first | assumption | simp)
    (h2 : Part.ring ∈ l := by first | assumption | simp)
    (h3 : Part.rm ∈ l := by first | assumption | simp)
    (h4 : Part.checkpoints ∈ l := by first | assumption | simp)
    (h5 : Part.attention ∈ l := by first | assumption | simp)
    (h6 : Part.flags ∈ l := by first | assumption | simp) : onlyChanges l s (writeOpen p s) :=
  ((appendOpen_frame _ s).trans (dropCheckpoints_frame p _)).trans (modCtx_frame p _ _)

theorem announceOpen_frame {l : List Part} (p : PointId) (s : State)
    (h1 : Part.link ∈ l := by first | assumption | simp)
    (h2 : Part.peers ∈ l := by first | assumption | simp) : onlyChanges l s (announceOpen p s) :=
  (onlyChanges_refl _ _).ite (queueBulletin_frame _ _)

/-- The parts that the steps of an opening before PRIMING may change. -/
@[simp] def recordParts (p : PointId) : List Part :=
  [.point p, .ring, .rm, .checkpoints, .link, .peers, .attention, .flags]

theorem writeOpen_latchPrice_frame (p : PointId) (s : State) :
    onlyChanges (recordParts p) s (writeOpen p (latchPrice p s)) :=
  (latchPrice_frame p s).trans (writeOpen_frame p _)

theorem announced_frame (p : PointId) (s : State) :
    onlyChanges (recordParts p) s (announceOpen p (writeOpen p (latchPrice p s))) :=
  (writeOpen_latchPrice_frame p s).trans (announceOpen_frame p _)

/-- An opening goes through its four steps. -/
theorem openFill_eq (p : PointId) (s : State) :
    openFill p s = startFlow p (announceOpen p (writeOpen p (latchPrice p s))) := by
  have latchedRole : (latchPrice p s).role p = s.role p :=
    role_of_frame (latchPrice_frame (l := [.point p]) p s) (by simp) p
  have writtenRole : (writeOpen p (latchPrice p s)).role p = s.role p :=
    role_of_frame (writeOpen_latchPrice_frame p s) (by simp) p
  have params : (writeOpen p (latchPrice p s)).params = s.params :=
    (writeOpen_latchPrice_frame p s).2 .params (by simp)
  have compartment : (announceOpen p (writeOpen p (latchPrice p s))).compartmentOf p =
      s.compartmentOf p :=
    compartmentOf_of_frame (announced_frame p s) (by simp) p
  rw [startFlow, compartment]
  simp only [openFill, announceOpen, writtenRole, params]
  simp only [writeOpen, latchedRole]
  simp only [latchPrice]

theorem latchPrice_ctx (p : PointId) (s : State) : ((latchPrice p s).point p).ctx =
    { (s.point p).ctx with
      price := if s.role p = .receipt then (s.point p).ctx.price else some (s.priceFor p) } := by
  by_cases h : s.role p = .receipt <;> simp [latchPrice, h, State.modCtx]

theorem latchPrice_journal (p : PointId) (s : State) :
    (latchPrice p s).journal = s.journal ∧ (latchPrice p s).rm = s.rm := by
  unfold latchPrice
  split <;> exact ⟨rfl, rfl⟩

theorem writeOpen_ctx (p : PointId) (s : State) : ((writeOpen p s).point p).ctx =
    { (s.point p).ctx with
      slot := some s.journal.writePosition, seq := some s.journal.nextSeq } := by
  have written := ctx_of_frame ((appendOpen_frame (l := [.ring, .attention, .flags, .rm, .checkpoints])
    (.fill (s.role p == .receipt) (s.openRecord p)) s).trans (dropCheckpoints_frame p _)) p
  simp [writeOpen, State.modCtx, written]

theorem writeOpen_recorded (p : PointId) (s : State) :
    slotAt (writeOpen p s).rm.slots s.journal.writePosition =
        some ⟨true, s.newRecord false (.fill (s.role p == .receipt) (s.openRecord p))⟩ ∧
      (∀ k, k ≠ s.journal.writePosition →
        slotAt (writeOpen p s).rm.slots k = slotAt s.rm.slots k) ∧
      (writeOpen p s).journal.held = s.journal.held + 1 ∧
      (writeOpen p s).journal.nextSeq = s.journal.nextSeq + 1 ∧
      (writeOpen p s).journal.setAside = s.journal.setAside - 1 := by
  obtain ⟨record, others⟩ := appendOpen_rm (s := s) (.fill (s.role p == .receipt) (s.openRecord p))
  obtain ⟨held, nextSeq, setAside⟩ :=
    appendOpen_journal (s := s) (.fill (s.role p == .receipt) (s.openRecord p))
  unfold writeOpen
  generalize appendOpen (.fill (s.role p == .receipt) (s.openRecord p)) s = t at *
  exact ⟨record, others, held, nextSeq, setAside⟩

/-- The record that an opening writes is the one its latched price gives. -/
theorem latchPrice_record (p : PointId) (s : State) :
    (latchPrice p s).newRecord false
        (.fill ((latchPrice p s).role p == .receipt) ((latchPrice p s).openRecord p)) =
      s.openedRecord p := by
  by_cases h : s.role p = .receipt
  · have latched : latchPrice p s = s := by simp [latchPrice, h]
    rw [latched, State.openedRecord, State.openedCtx, if_pos h]
    rfl
  · have latched : latchPrice p s = s.modCtx p (fun c => { c with price := some (s.priceFor p) }) := by
      simp [latchPrice, h]
    have ctx := latchPrice_ctx p s
    rw [latched] at ctx ⊢
    simp only [if_neg h] at ctx
    simp only [State.openedRecord, State.openedCtx, if_neg h, State.openRecord, ctx]
    rfl

/-- A fill opens: PRIMING with its timers, the OPEN record written, the channel counting from zero. -/
structure FillOpened (p : PointId) (s t : State) : Prop where
  state : (t.point p).state = .priming
  timers : (t.point p).timers = { PointTimers.stopped with prime := true, noFlow := true }
  ctx : (t.point p).ctx = s.openedCtx p
  recorded : OpenRecorded p s t
  counting : (t.meter p).counting = true
  live : (t.meter p).live = 0
  count : (t.meter p).c = 0

theorem announced_opened (p : PointId) (s : State) :
    let u := announceOpen p (writeOpen p (latchPrice p s))
    (u.point p).ctx = s.openedCtx p ∧ OpenRecorded p s u := by
  obtain ⟨record, others, held, nextSeq, setAside⟩ := writeOpen_recorded p (latchPrice p s)
  have announced := announceOpen_frame (l := [.link, .peers]) p (writeOpen p (latchPrice p s))
  obtain ⟨journal, rm⟩ := latchPrice_journal p s
  rw [latchPrice_record, journal] at record
  rw [journal, rm] at others
  rw [journal] at held nextSeq setAside
  refine ⟨?_, OpenRecorded.of_frame ⟨held, nextSeq, setAside, record, others⟩ announced⟩
  rw [ctx_of_frame announced p, writeOpen_ctx, latchPrice_ctx, journal]
  rfl

/-- An opening opens the fill of its point. -/
theorem openFill_opened (p : PointId) (s : State) : FillOpened p s (openFill p s) := by
  obtain ⟨ctx, recorded⟩ := announced_opened p s
  rw [openFill_eq]
  generalize announceOpen p (writeOpen p (latchPrice p s)) = u at ctx recorded ⊢
  have frame : onlyChanges [.point p, .line p, .meter p, .comp (u.compartmentOf p)] u (startFlow p u) :=
    ((enterPriming_frame p u).trans (setMeter_frame p _ _)).trans (stopQuiet_frame _ _)
  refine ⟨?_, ?_, ?_, recorded.of_frame frame, ?_, ?_, ?_⟩
  · simp [startFlow, stopQuiet, enterPriming]
  · simp [startFlow, stopQuiet, enterPriming]
  · simp [startFlow, stopQuiet, enterPriming, ctx]
  all_goals simp [startFlow, stopQuiet, State.targetsAt, Channel.open]

/-- As its fill opens, a point's line is powered as PRIMING requires. -/
theorem openFill_line (p : PointId) (s : State) :
    (openFill p s).line p = (s.line p).follow s.mode .priming := by
  have line : (announceOpen p (writeOpen p (latchPrice p s))).line p = s.line p :=
    (announced_frame p s).2 (.line p) (by simp)
  have mode : (announceOpen p (writeOpen p (latchPrice p s))).mode = s.mode :=
    (announced_frame p s).2 .mode (by simp)
  rw [openFill_eq, ← line, ← mode]
  simp [startFlow, stopQuiet, enterPriming, putPoint_line]

end
end Sys2Proof.Machine
end

