-- ==== Sys2Proof/Proofs/Offers.lean ====
section
/-! SUPPORT. Lookups (R15, R16), the checks of an offer (R23, R83), an accepted confirm (R25) and
the fill of an auto-confirm point (R44). -/

namespace Sys2Proof.Machine

section
variable {s t : State} {p : PointId} {m : RosterRecord}

/-! ### Lookups (R15, R16) -/

theorem productOf_succ (q : Fin 8) : productOf (q.val + 1) = some q := by
  unfold productOf
  rw [dif_pos ⟨by omega, by omega⟩]
  exact congrArg some (Fin.ext (by simp))

/-- A machine that is not barred and has the point's product is found. -/
theorem lookupOutcome_found {q : Fin 8} (hb : m.barred = false) (hq : s.productAt p = q.val + 1)
    (hm : m.products.getLsbD q.val = true) : lookupOutcome s p (some m) = .ok m := by
  simp [lookupOutcome, hb, hq, productOf_succ, hm]

/-- A machine that is barred or lacks the point's product is refused, with BARRED first. -/
theorem lookupOutcome_refused {q : Fin 8} (hq : s.productAt p = q.val + 1)
    (h : m.barred = true ∨ m.products.getLsbD q.val = false) :
    lookupOutcome s p (some m) = .error (if m.barred = true then .barred else .wrongProduct) := by
  by_cases hb : m.barred = true
  · simp [lookupOutcome, hb]
  · have hm : m.products.getLsbD q.val = false := h.resolve_left hb
    simp only [lookupOutcome, hb, hq, productOf_succ, hm, Bool.false_eq_true, if_false]

/-! ### The checks of an offer (R23, R82, R83) -/

theorem aboveFloor_iff : s.aboveFloor = true ↔ 4 < s.freeSlots := by
  simp [State.aboveFloor, floorSlots]

/-- The reason of a preset that is refused is that of the first limiting term (R83). -/
theorem presetRefusal_eq : s.presetRefusal p m =
    if m.allowance.any (fun a => decide (s.remaining m.fleet a < (s.pp p).minFill)) then .noAllowance
    else if m.tank.any (fun v => decide (v < (s.pp p).minFill)) then .tankCapacity
    else .noStock := by
  unfold State.presetRefusal State.allowanceTerm
  cases m.allowance <;> cases m.tank <;> rfl

/-- The checks of an offer in their order, the last one that of the preset (R23, R25). -/
theorem firstRefusal_eq {request : Nat} : s.firstRefusal p m request =
    if s.receiptOpen (s.compartmentOf p) = true then some .compartmentBusy
    else if s.freeSlots ≤ 4 then some .journalFull
    else if (s.pp p).minFill ≤ s.presetOf p m request then none
    else some (s.presetRefusal p m) := by
  rw [presetRefusal_eq, apply_ite some, apply_ite some]
  rfl

/-- Every check of an offer passes. -/
theorem firstRefusal_none_iff {request : Nat} :
    s.firstRefusal p m request = none ↔
      s.receiptOpen (s.compartmentOf p) = false ∧ 4 < s.freeSlots ∧
        (s.pp p).minFill ≤ s.presetOf p m request := by
  rw [firstRefusal_eq]
  by_cases busy : s.receiptOpen (s.compartmentOf p) = true
  · simp [busy]
  by_cases full : s.freeSlots ≤ 4
  · simp [busy, full, Nat.not_lt_of_le full]
  · simp [busy, full, Nat.lt_of_not_le full]

/-- A larger request is not given a smaller preset (R82). -/
theorem presetOf_mono {a b : Nat} (h : a ≤ b) : s.presetOf p m a ≤ s.presetOf p m b := by
  have least : ∀ x y k : Nat, x ≤ y → min x k ≤ min y k := by omega
  have term : ∀ (x y : Nat) (o : Option Nat), x ≤ y → minOpt x o ≤ minOpt y o := fun x y o hxy => by
    cases o with
    | none => exact hxy
    | some k => exact least x y k hxy
  exact least _ _ _ (term _ _ _ (term _ _ _ (least _ _ _ h)))

/-- The terms of a preset do not lie in the point, its line, the journal's space, or the outputs. -/
theorem presetOf_of_frame (h : onlyChanges [.point p, .line p, .ring, .attention, .flags] s t)
    (request : Nat) : t.presetOf p m request = s.presetOf p m request := by
  have params : t.params = s.params := h.2 .params (by simp)
  have allowance : t.allowance = s.allowance := h.2 .allowance (by simp)
  have peers : t.peers = s.peers := h.2 .peers (by simp)
  have meter : ∀ q, t.meter q = s.meter q := fun q => h.2 (.meter q) (by simp)
  have comp : ∀ c, t.comp c = s.comp c := fun c => h.2 (.comp c) (by simp)
  have outstanding : t.outstanding = s.outstanding := funext fun o => by
    simp only [State.outstanding, meter]
  have remaining : t.remaining = s.remaining := funext fun fleet => funext fun a => by
    simp only [State.remaining, State.contributed, State.heldFor, State.openFor, State.gapDeduction,
      State.gapSum, params, allowance, peers]
  simp only [State.presetOf, State.allowanceTerm, State.available, State.stockBasis,
    State.outstandingOn, State.compartmentOf, State.pp, State.cp, params, allowance, comp,
    outstanding, remaining]

/-- The work of a delivery point leaves open receipts as they are. -/
theorem receiptOpen_of_frame (hr : s.role p = .delivery)
    (h : onlyChanges [.point p, .line p, .ring, .attention, .flags] s t) (c : CompId) :
    t.receiptOpen c = s.receiptOpen c := by
  have role : ∀ q, t.role q = s.role q := role_of_frame h
  have compartment : ∀ q, t.compartmentOf q = s.compartmentOf q :=
    compartmentOf_of_frame h (by simp)
  unfold State.receiptOpen
  congr 1
  funext q
  rw [role, compartment]
  by_cases hq : q = p
  · rw [hq, hr]
    rfl
  · rw [point_of_frame h q (by simp [hq])]

/-- An offer that a check fails is refused with the first such check's reason, the machine named (R23). -/
theorem offerMachine_refused {r : RefusalReason} (tag : Option TagId)
    (h : s.firstRefusal p m (s.pp p).defaultPreset = some r) :
    offerMachine p m tag s =
      enterRefused p r { FillContext.empty with named := some (m.fleet, m.account) } s := by
  rw [firstRefusal_eq] at h
  unfold offerMachine
  by_cases busy : s.receiptOpen (s.compartmentOf p) = true
  · rw [if_pos busy] at h ⊢
    rw [Option.some.inj h]
  rw [if_neg busy] at h ⊢
  by_cases full : s.freeSlots ≤ 4
  · rw [if_pos full] at h
    rw [if_pos (by rw [aboveFloor_iff]; omega), Option.some.inj h]
  rw [if_neg full] at h
  rw [if_neg (by rw [aboveFloor_iff]; omega)]
  by_cases fits : (s.pp p).minFill ≤ s.presetOf p m (s.pp p).defaultPreset
  · rw [if_pos fits] at h
    contradiction
  rw [if_neg fits] at h
  rw [presetAnswer, if_neg fits, Option.some.inj h]

/-- The context of an offer to a machine (R23). -/
def offerCtx (m : RosterRecord) (tag : Option TagId) (n : Nat) : FillContext :=
  { FillContext.empty with machine := some m, tag := tag, manual := tag.isNone, offer := some n }

/-- An offer whose checks pass waits for its confirm (R23). -/
theorem offerMachine_offered (tag : Option TagId)
    (h : s.firstRefusal p m (s.pp p).defaultPreset = none) (ha : (s.pp p).autoConfirm = false) :
    offerMachine p m tag s =
      raisePoint p (.offer (s.presetOf p m (s.pp p).defaultPreset)) (putPoint p { s.point p with
        state := .offered, timers := { PointTimers.stopped with confirm := true }
        ctx := offerCtx m tag (s.presetOf p m (s.pp p).defaultPreset) } s) := by
  obtain ⟨idle, free, fits⟩ := firstRefusal_none_iff.1 h
  simp [offerMachine, idle, aboveFloor_iff.2 free, presetAnswer, fits, ha, offerCtx]

/-! ### A confirm that is accepted (R25) -/

/-- A delivery's confirm accepted: the slot set aside, the request, the operator and the preset noted, the
open-preset entry added. -/
def acceptConfirm (p : PointId) (m : RosterRecord) (request operator : Nat) (s : State) : State :=
  addOpenPreset p m.fleet (s.presetOf p m request) ((setSlotAside s).modCtx p (fun c =>
    { c with request := some request, operator := some operator
             preset := some (s.presetOf p m request) }))

theorem setSlotAside_sameRing : (setSlotAside s).rm = s.rm ∧
    (setSlotAside s).journal.writePosition = s.journal.writePosition ∧
    (setSlotAside s).journal.held = s.journal.held ∧
    (setSlotAside s).journal.nextSeq = s.journal.nextSeq ∧
    (setSlotAside s).journal.setAside = s.journal.setAside + 1 := by
  obtain ⟨rm, oldest, held, nextSeq, setAside⟩ :=
    judgeJournal_ring (s := s.setJournal { s.journal with setAside := s.journal.setAside + 1 })
  refine ⟨rm, ?_, held, nextSeq, setAside⟩
  unfold setSlotAside Journal.writePosition
  rw [oldest, held]
  rfl

/-- A delivery's confirm whose checks pass opens the fill. -/
theorem confirmPoint_accepted (volume operator : Nat) (hr : s.role p = .delivery)
    (hm : (s.point p).ctx.machine = some m)
    (h : s.firstRefusal p m (max volume (s.pp p).minFill) = none) :
    confirmPoint p volume operator s =
      (openFill p (acceptConfirm p m (max volume (s.pp p).minFill) operator s),
        .accepted (s.presetOf p m (max volume (s.pp p).minFill)) s.journal.nextSeq) := by
  obtain ⟨idle, free, fits⟩ := firstRefusal_none_iff.1 h
  obtain ⟨-, -, -, nextSeq, -⟩ := setSlotAside_sameRing (s := s)
  have aside := setSlotAside_frame (l := [.point p, .line p, .ring, .attention, .flags]) s
  have params : (setSlotAside s).params = s.params := aside.2 .params (by simp)
  have role : (setSlotAside s).role p = .delivery := (role_of_frame aside (by simp) p).trans hr
  have machine : ((setSlotAside s).point p).ctx.machine = some m := by
    rw [ctx_of_frame (setSlotAside_frame (l := [.ring, .attention, .flags]) s) p, hm]
  have preset : (setSlotAside s).confirmPreset p (max volume (s.pp p).minFill) =
      .ok (s.presetOf p m (max volume (s.pp p).minFill)) := by
    have fits' : ((setSlotAside s).pp p).minFill ≤ s.presetOf p m (max volume (s.pp p).minFill) := by
      rw [State.pp, params]
      exact fits
    simp only [State.confirmPreset, role, machine, presetAnswer, presetOf_of_frame aside, if_pos fits']
  have role' : ((setSlotAside s).modCtx p (fun c =>
      { c with request := some (max volume (s.pp p).minFill), operator := some operator
               preset := some (s.presetOf p m (max volume (s.pp p).minFill)) })).role p = .delivery :=
    role
  simp only [confirmPoint, idle, aboveFloor_iff.2 free, preset, role']
  simp [State.modCtx, machine, acceptConfirm, nextSeq, addOpenPreset]

theorem acceptConfirm_frame {l : List Part} (request operator : Nat)
    (h1 : Part.point p ∈ l := by first | assumption | simp)
    (h2 : Part.allowance ∈ l := by first | assumption | simp)
    (h3 : Part.ring ∈ l := by first | assumption | simp)
    (h4 : Part.attention ∈ l := by first | assumption | simp)
    (h5 : Part.flags ∈ l := by first | assumption | simp) :
    onlyChanges l s (acceptConfirm p m request operator s) :=
  ((setSlotAside_frame s).trans (modCtx_frame p _ _)).trans (addOpenPreset_frame p _ _ _)

theorem acceptConfirm_ctx (request operator : Nat) :
    ((acceptConfirm p m request operator s).point p).ctx =
      { (s.point p).ctx with
        request := some request, operator := some operator
        preset := some (s.presetOf p m request) } := by
  have aside := ctx_of_frame (setSlotAside_frame (l := [.ring, .attention, .flags]) s) p
  simp [acceptConfirm, addOpenPreset, State.modCtx, aside]

/-- An accepted confirm leaves the record memory and the ring's place alone and sets one slot aside. -/
theorem acceptConfirm_sameRing (request operator : Nat) :
    let t := acceptConfirm p m request operator s
    t.rm = s.rm ∧ t.journal.writePosition = s.journal.writePosition ∧
      t.journal.held = s.journal.held ∧ t.journal.nextSeq = s.journal.nextSeq ∧
      t.journal.setAside = s.journal.setAside + 1 := by
  simp only [acceptConfirm, addOpenPreset, State.modCtx, State.setAllowance_rm, State.setPoint_rm,
    State.setAllowance_journal, State.setPoint_journal]
  exact setSlotAside_sameRing

/-- A delivery whose confirm is accepted opens with the price in force, at the write position, with the next
seq. -/
theorem acceptConfirm_openedCtx (request operator : Nat) (hr : s.role p = .delivery) :
    (acceptConfirm p m request operator s).openedCtx p =
      { (s.point p).ctx with
        request := some request, operator := some operator
        preset := some (s.presetOf p m request), price := some (s.priceFor p)
        slot := some s.journal.writePosition, seq := some s.journal.nextSeq } := by
  have frame := acceptConfirm_frame (s := s) (p := p) (m := m)
    (l := [.point p, .allowance, .ring, .attention, .flags]) request operator
  have role := (role_of_frame frame (by simp) p).trans hr
  have price := priceFor_of_frame frame (by simp) (by simp) p
  obtain ⟨-, position, -, nextSeq, -⟩ :=
    acceptConfirm_sameRing (s := s) (p := p) (m := m) request operator
  simp [State.openedCtx, acceptConfirm_ctx, role, price, position, nextSeq]

/-! ### An offer that is confirmed at once (R44) -/

/-- An auto-confirm point with an offer that nothing announces. -/
def offerSilently (p : PointId) (m : RosterRecord) (tag : Option TagId) (s : State) : State :=
  putPoint p { s.point p with
    state := .offered, timers := .stopped
    ctx := offerCtx m tag (s.presetOf p m (s.pp p).defaultPreset) } s

theorem offerSilently_frame {l : List Part} (tag : Option TagId)
    (h1 : Part.point p ∈ l := by first | assumption | simp)
    (h2 : Part.line p ∈ l := by first | assumption | simp) :
    onlyChanges l s (offerSilently p m tag s) :=
  putPoint_frame p _ s

/-- The request that an auto-confirm point makes for itself. -/
def State.autoRequest (s : State) (p : PointId) : Nat := max (s.pp p).defaultPreset (s.pp p).minFill

/-- On an auto-confirm point an offer whose checks pass is confirmed at once, with no operator (R44). -/
theorem offerMachine_opens (tag : Option TagId) (hr : s.role p = .delivery)
    (h : s.firstRefusal p m (s.pp p).defaultPreset = none) (ha : (s.pp p).autoConfirm = true) :
    offerMachine p m tag s =
      openFill p (acceptConfirm p m (s.autoRequest p) 0 (offerSilently p m tag s)) := by
  obtain ⟨idle, free, fits⟩ := firstRefusal_none_iff.1 h
  have frame := offerSilently_frame (s := s) (p := p) (m := m)
    (l := [.point p, .line p, .ring, .attention, .flags]) tag
  have params : (offerSilently p m tag s).params = s.params := frame.2 .params (by simp)
  have pp : (offerSilently p m tag s).pp p = s.pp p := by rw [State.pp, params, State.pp]
  have journal : (offerSilently p m tag s).freeSlots = s.freeSlots := by
    obtain ⟨-, held, -, setAside, -⟩ :=
      (offerSilently_frame (s := s) (p := p) (m := m) (l := [.point p, .line p]) tag).2 .ring (by simp)
    simp only [State.freeSlots, State.occupied, held, setAside]
  have passes : (offerSilently p m tag s).firstRefusal p m (max (s.pp p).defaultPreset
      ((offerSilently p m tag s).pp p).minFill) = none := by
    rw [firstRefusal_none_iff, receiptOpen_of_frame hr frame, compartmentOf_of_frame frame (by simp),
      journal, presetOf_of_frame frame, pp]
    exact ⟨idle, free, Nat.le_trans fits (presetOf_mono (Nat.le_max_left _ _))⟩
  have confirmed := confirmPoint_accepted (s := offerSilently p m tag s) (p := p) (m := m)
    (s.pp p).defaultPreset 0 ((role_of_frame frame (by simp) p).trans hr)
    (by simp [offerSilently, offerCtx]) passes
  rw [pp] at confirmed
  have offered : offerMachine p m tag s =
      (confirmPoint p (s.pp p).defaultPreset 0 (offerSilently p m tag s)).1 := by
    simp [offerMachine, idle, aboveFloor_iff.2 free, presetAnswer, fits, ha, offerSilently, offerCtx]
  rw [offered, confirmed, State.autoRequest]

/-- The context of a fill opened at once on an auto-confirm point. -/
def State.autoCtx (s : State) (p : PointId) (m : RosterRecord) (tag : Option TagId) : FillContext :=
  { offerCtx m tag (s.presetOf p m (s.pp p).defaultPreset) with
    request := some (s.autoRequest p), operator := some 0
    preset := some (s.presetOf p m (s.autoRequest p)), price := some (s.priceFor p)
    slot := some s.journal.writePosition, seq := some s.journal.nextSeq }

/-- What an auto-confirm point's fill opens from: the journal's place is as before, its context complete. -/
theorem autoConfirmed (tag : Option TagId) (hr : s.role p = .delivery) :
    let u := acceptConfirm p m (s.autoRequest p) 0 (offerSilently p m tag s)
    onlyChanges [.point p, .line p, .allowance, .ring, .attention, .flags] s u ∧
      u.openedCtx p = s.autoCtx p m tag ∧ u.rm = s.rm ∧
      u.journal.writePosition = s.journal.writePosition ∧ u.journal.held = s.journal.held ∧
      u.journal.nextSeq = s.journal.nextSeq := by
  have frame := offerSilently_frame (s := s) (p := p) (m := m)
    (l := [.point p, .line p, .ring, .attention, .flags]) tag
  have journal : (offerSilently p m tag s).journal = s.journal := by
    simp only [offerSilently, putPoint, powerLine]
    split <;> rfl
  have rm : (offerSilently p m tag s).rm = s.rm := frame.2 .rm (by simp)
  obtain ⟨rm', position, held, nextSeq, -⟩ :=
    acceptConfirm_sameRing (s := offerSilently p m tag s) (p := p) (m := m) (s.autoRequest p) 0
  rw [journal] at position held nextSeq
  refine ⟨(frame.mono (by simp)).trans (acceptConfirm_frame _ _), ?_, rm'.trans rm, position, held,
    nextSeq⟩
  rw [acceptConfirm_openedCtx _ _ ((role_of_frame frame (by simp) p).trans hr),
    presetOf_of_frame frame, priceFor_of_frame frame, journal]
  simp [offerSilently, State.autoCtx]

/-- A fill opened at once on an auto-confirm point (R44). -/
structure AutoOpened (p : PointId) (m : RosterRecord) (tag : Option TagId) (s t : State) : Prop where
  state : (t.point p).state = .priming
  timers : (t.point p).timers = { PointTimers.stopped with prime := true, noFlow := true }
  ctx : (t.point p).ctx = s.autoCtx p m tag
  counting : (t.meter p).counting = true
  live : (t.meter p).live = 0
  nextSeq : t.journal.nextSeq = s.journal.nextSeq + 1
  held : t.journal.held = s.journal.held + 1
  record : ∃ (r : Record) (f : FillRecord),
    slotAt t.rm.slots s.journal.writePosition = some ⟨true, r⟩ ∧ r.seq = s.journal.nextSeq ∧
      r.closed = false ∧ r.body = .fill false f ∧ f.point = p ∧ f.fleet = some m.fleet ∧
      f.manual = tag.isNone ∧ f.operator = 0
  others : ∀ k, k ≠ s.journal.writePosition → slotAt t.rm.slots k = slotAt s.rm.slots k
  line : t.line p = (s.line p).follow s.mode .priming
  frame : onlyChanges (openParts s p) s t

theorem offerMachine_autoOpened (tag : Option TagId) (hr : s.role p = .delivery)
    (h : s.firstRefusal p m (s.pp p).defaultPreset = none) (ha : (s.pp p).autoConfirm = true) :
    AutoOpened p m tag s (offerMachine p m tag s) := by
  obtain ⟨frame, ctx, rm, position, held, nextSeq⟩ := autoConfirmed (s := s) (p := p) (m := m) tag hr
  have line : (openFill p (acceptConfirm p m (s.autoRequest p) 0 (offerSilently p m tag s))).line p =
      (s.line p).follow s.mode .priming := by
    have kept : (acceptConfirm p m (s.autoRequest p) 0 (offerSilently p m tag s)).line p =
        (offerSilently p m tag s).line p :=
      (acceptConfirm_frame (l := [.point p, .allowance, .ring, .attention, .flags]) _ _).2 (.line p)
        (by simp)
    have mode := frame.2 .mode (by simp)
    rw [openFill_line, kept, mode, offerSilently, putPoint_line]
    exact TagLine.follow_follow _ rfl
  rw [offerMachine_opens tag hr h ha]
  generalize acceptConfirm p m (s.autoRequest p) 0 (offerSilently p m tag s) = u at *
  have opened := openFill_opened p u
  have role : u.role p = .delivery := (role_of_frame frame (by simp) p).trans hr
  have compartment := compartmentOf_of_frame frame (by simp) p
  refine ⟨opened.state, opened.timers, opened.ctx.trans ctx, opened.counting, opened.live,
    opened.recorded.nextSeq.trans (congrArg (· + 1) nextSeq),
    opened.recorded.held.trans (congrArg (· + 1) held),
    ⟨u.openedRecord p, { u.openRecord p with price := (u.openedCtx p).price },
      position ▸ opened.recorded.record, nextSeq, rfl, ?_, rfl, ?_, ?_, ?_⟩, ?_, line, ?_⟩
  · simp [State.openedRecord, State.newRecord, role]
  · have machine : (u.point p).ctx.machine = some m := congrArg FillContext.machine ctx
    simp [State.openRecord, machine]
  · exact congrArg FillContext.manual ctx
  · have operator : (u.point p).ctx.operator = some 0 := congrArg FillContext.operator ctx
    simp [State.openRecord, operator]
  · intro k hk
    rw [opened.recorded.others k (position.symm ▸ hk), rm]
  · refine (frame.mono (by simp [openParts])).trans (openFill_frame p u ?_ ?_ ?_ ?_ ?_ ?_ ?_ ?_ ?_ ?_ ?_)
    all_goals simp [openParts, compartment]

end
end Sys2Proof.Machine
end

