-- ==== Sys2Proof/Proofs/TagLines.lean ====
section
/-! SUPPORT. The assembler and the presence logic of a tag line, with the settlements of O38 and O39. -/

namespace Sys2Proof.Machine

section
variable {s t : State} {p : PointId}

/-! ### Lookups acted on (R22) -/

theorem identify_error {found : Option RosterRecord} {r : RefusalReason} (tag : Option TagId)
    (h : lookupOutcome s p found = .error r) :
    identify p found tag s = (enterRefused p r
      { FillContext.empty with named := found.map (fun m => (m.fleet, m.account)) } s, some r) := by
  rw [identify, h]

theorem identify_ok {found : Option RosterRecord} {m : RosterRecord} (tag : Option TagId)
    (h : lookupOutcome s p found = .ok m) :
    identify p found tag s = (offerMachine p m tag s, none) := by
  rw [identify, h]

/-! ### What the work of a point does to a frame in assembly -/

theorem State.noFrame.offerMachine (hs : s.noFrame p) (m : RosterRecord) (tag : Option TagId)
    (hr : s.role p = .delivery) : (Machine.offerMachine p m tag s).noFrame p := by
  cases h : s.firstRefusal p m (s.pp p).defaultPreset with
  | some r =>
    rw [offerMachine_refused tag h]
    exact hs.enterRefused r _
  | none =>
    cases ha : (s.pp p).autoConfirm with
    | false =>
      rw [offerMachine_offered tag h ha]
      exact (hs.putPoint _).of_frame (raisePoint_frame (l := [.attention]) p _ _)
    | true =>
      rw [State.noFrame, (offerMachine_autoOpened tag hr h ha).line]
      exact TagLine.follow_frame _ _ hs

theorem State.noFrame.identify (hs : s.noFrame p) (found : Option RosterRecord) (tag : Option TagId)
    (hr : s.role p = .delivery) : (Machine.identify p found tag s).1.noFrame p := by
  cases h : lookupOutcome s p found with
  | error r =>
    rw [identify_error tag h]
    exact hs.enterRefused r _
  | ok m =>
    rw [identify_ok tag h]
    exact hs.offerMachine m tag hr

theorem State.noFrame.presentReport (hs : s.noFrame p) (id : TagId) :
    (Machine.presentReport p id s).noFrame p := by
  unfold Machine.presentReport
  split
  · exact hs
  · rename_i hr
    split
    · exact hs.identify _ _ (Classical.not_not.1 hr)
    · split
      · exact hs.putPoint _
      · exact hs.putPoint _
    · exact hs

theorem State.noFrame.changedReport (hs : s.noFrame p) : (Machine.changedReport p s).noFrame p := by
  unfold Machine.changedReport refuseEvent
  split
  · exact hs
  · split
    · split
      · exact hs.enterRefused _ _
      · exact hs.enterRefused _ _
      · exact hs
    · exact hs.putPoint _
    · exact hs.putPoint _
    · exact hs.putPoint _
    · exact hs

/-- A line replaced by one without a frame in assembly. -/
theorem noFrame_setLine (x : TagLine) (h : x.frame = []) : (s.setLine p x).noFrame p := by
  simpa [State.noFrame] using h

theorem State.noFrame.validFrame (hs : s.noFrame p) (id : TagId) :
    (Machine.validFrame p id s).noFrame p := by
  unfold Machine.validFrame
  dsimp only
  split
  · exact noFrame_setLine _ hs
  · split
    · refine State.noFrame.presentReport ?_ id
      exact noFrame_setLine _ hs
    · exact noFrame_setLine _ hs
  · split
    · exact noFrame_setLine _ hs
    · split
      · refine State.noFrame.changedReport ?_
        exact noFrame_setLine _ hs
      · exact noFrame_setLine _ hs

theorem State.noFrame.noTagFrame (hs : s.noFrame p) : (Machine.noTagFrame p s).noFrame p := by
  unfold Machine.noTagFrame
  dsimp only
  split
  · exact hs
  · exact noFrame_setLine _ hs
  · exact noFrame_setLine _ hs

/-! ### The assembler (R7, R8) -/

/-- A byte taken while no frame is in assembly starts one when it is A5h and is dropped otherwise. -/
theorem tagByteTaken_outside {b : Byte} {rest : List Byte} (hf : (s.line p).fifo = b :: rest)
    (h : (s.line p).frame = []) :
    tagByteTaken p s = s.setLine p (if b = 0xA5 then
        { s.line p with fifo := rest, frame := [0xA5], charTimer := true }
      else { s.line p with fifo := rest }) := by
  simp only [tagByteTaken, hf, h, List.isEmpty_nil, if_true]
  by_cases hb : b = 0xA5
  · rw [if_pos hb, if_pos hb, hb]
  · rw [if_neg hb, if_neg hb]

/-- A byte taken into a frame of fewer than ten bytes is appended. -/
theorem tagByteTaken_append {b : Byte} {rest : List Byte} (hf : (s.line p).fifo = b :: rest)
    (h : (s.line p).frame ≠ []) (hl : (s.line p).frame.length < 10) :
    tagByteTaken p s =
      s.setLine p { s.line p with fifo := rest, frame := (s.line p).frame ++ [b] } := by
  have short : (s.line p).frame.length + 1 < 11 := by omega
  have some : (s.line p).frame.isEmpty = false := List.isEmpty_eq_false_iff.2 h
  simp only [tagByteTaken, hf, some, short, Bool.false_eq_true, if_false, if_true]

/-- A byte that completes a frame has the frame checked, the assembler empty. -/
theorem tagByteTaken_complete {b : Byte} {rest : List Byte} (hf : (s.line p).fifo = b :: rest)
    (hl : 10 ≤ (s.line p).frame.length) :
    tagByteTaken p s = checkTagFrame p ((s.line p).frame ++ [b])
      (s.setLine p { s.line p with fifo := rest, frame := [], charTimer := false }) := by
  have long : ¬ (s.line p).frame.length + 1 < 11 := by omega
  have some : (s.line p).frame.isEmpty = false := by
    cases hfr : (s.line p).frame with
    | nil => simp [hfr] at hl
    | cons => rfl
  simp only [tagByteTaken, hf, some, long, Bool.false_eq_true, if_false]

/-- A complete frame with a wrong check byte is counted and marked (R8, R9). -/
theorem checkTagFrame_bad {f : List Byte} (h : xorBytes ((f.drop 1).take 9) ≠ f.getD 10 0) :
    checkTagFrame p f s = markTagLine p
      (s.setLine p { s.line p with checkErrors := count16 (s.line p).checkErrors }) := by
  rw [checkTagFrame, if_pos h]

/-- A complete frame with a good check byte is a valid one or a no-tag one by its status (R8). -/
theorem checkTagFrame_good {f : List Byte} (h : xorBytes ((f.drop 1).take 9) = f.getD 10 0) :
    checkTagFrame p f s = if f.getD 9 0 = 0 then validFrame p (tagIdOf f) s else noTagFrame p s := by
  rw [checkTagFrame, if_neg (Classical.not_not.2 h)]

/-- The TAG_LINE mark is set, and only the line and the marks change (R9). -/
theorem markTagLine_setLine (x : TagLine) :
    ((markTagLine p (s.setLine p x)).line p = x) ∧
      (markTagLine p (s.setLine p x)).port.faults[p].tagLine = true ∧
      onlyChanges [.line p, .faults] s (markTagLine p (s.setLine p x)) := by
  refine ⟨?_, ?_, (setLine_frame p x s).trans (markFault_frame p _ _)⟩
  · simp [markTagLine, markFault]
  · simp [markTagLine, markFault]

theorem setLine_setLine (x y : TagLine) : (s.setLine p x).setLine p y = s.setLine p y := by
  simp [State.setLine]

/-- The line of a point after a frame is completed, before it is checked. -/
def TagLine.frameTaken (l : TagLine) : TagLine := { l with fifo := [], frame := [], charTimer := false }

/-- A valid frame that ends reaches the presence logic. -/
theorem tagByteTaken_valid {b : Byte} {id : TagId} (h : s.endsTagFrame p b id) :
    tagByteTaken p s = validFrame p id (s.setLine p (s.line p).frameTaken) := by
  obtain ⟨⟨fifo, length, check⟩, status, hid⟩ := h
  rw [List.length_append, List.length_singleton] at length
  rw [tagByteTaken_complete fifo (by omega), checkTagFrame_good check, if_pos status, hid]
  rfl

/-- A no-tag frame that ends reaches the presence logic. -/
theorem tagByteTaken_noTag {b : Byte} (h : s.endsNoTagFrame p b) :
    tagByteTaken p s = noTagFrame p (s.setLine p (s.line p).frameTaken) := by
  obtain ⟨⟨fifo, length, check⟩, status⟩ := h
  rw [List.length_append, List.length_singleton] at length
  rw [tagByteTaken_complete fifo (by omega), checkTagFrame_good check, if_neg status]
  rfl

end

/-- Settles O38, by the cases of the FIFO and of the assembler; that no byte of a complete frame is kept holds
of every effect its report can have. -/
theorem tagBytesAssembleAFrame : Obligations.TagBytesAssembleAFrame := by
  unfold Obligations.TagBytesAssembleAFrame
  refine ⟨fun s p c hp => ⟨?received, ?noStop⟩, fun s p c stopBit hp => ?unpowered,
    fun s p b rest hf => ?taken⟩
  case received =>
    split
    next room =>
      have appended : tagCharacter p c true s = s.setLine p { s.line p with
          fifo := (s.line p).fifo ++ [c], charTimer := !(s.line p).frame.isEmpty } := by
        simp [tagCharacter, hp, Nat.not_le_of_lt room]
      refine ⟨drive (tagCharacter p c true s), rfl, ?_⟩
      rw [appended]
      simpa using (setLine_frame p _ s).driven
    next full =>
      have lost : tagCharacter p c true s = markTagLine p (s.setLine p { s.line p with
          fifo := [], frame := [], charTimer := false
          overrunErrors := count16 (s.line p).overrunErrors }) := by
        simp [tagCharacter, hp, Nat.le_of_not_lt full]
      obtain ⟨line, mark, frame⟩ := markTagLine_setLine (s := s) (p := p) { s.line p with
        fifo := [], frame := [], charTimer := false
        overrunErrors := count16 (s.line p).overrunErrors }
      refine ⟨drive (tagCharacter p c true s), rfl, ?_⟩
      rw [lost, drive_line, line]
      exact ⟨rfl, rfl, rfl, rfl, rfl, rfl, mark, frame.driven⟩
  case noStop =>
    refine ⟨drive (tagCharacter p c false s), rfl, ?_⟩
    simpa [tagCharacter] using drive_frame [] s
  case unpowered =>
    refine ⟨drive (tagCharacter p c stopBit s), rfl, ?_⟩
    simpa [tagCharacter, hp] using drive_frame [] s
  case taken =>
    refine ⟨drive (tagByteTaken p s), rfl, ?_⟩
    by_cases outside : (s.line p).frame = []
    · rw [if_pos outside, tagByteTaken_outside hf outside]
      exact ⟨by rw [drive_line, State.setLine_line_same], (setLine_frame p _ s).driven⟩
    rw [if_neg outside]
    by_cases short : (s.line p).frame.length < 10
    · rw [if_pos short, tagByteTaken_append hf outside short]
      exact ⟨by rw [drive_line, State.setLine_line_same], (setLine_frame p _ s).driven⟩
    rw [if_neg short, tagByteTaken_complete hf (Nat.le_of_not_lt short)]
    by_cases bad : xorBytes ((((s.line p).frame ++ [b]).drop 1).take 9) ≠
        ((s.line p).frame ++ [b]).getD 10 0
    · rw [if_pos bad, checkTagFrame_bad bad, setLine_setLine, State.setLine_line_same]
      obtain ⟨line, mark, frame⟩ := markTagLine_setLine (s := s) (p := p) { s.line p with
        fifo := rest, frame := [], charTimer := false, checkErrors := count16 (s.line p).checkErrors }
      exact ⟨line, mark, frame.driven⟩
    · rw [if_neg bad, checkTagFrame_good (Classical.not_not.1 bad), drive_line]
      have empty : (s.setLine p
          { s.line p with fifo := rest, frame := [], charTimer := false }).noFrame p :=
        noFrame_setLine _ rfl
      split
      · exact empty.validFrame _
      · exact empty.noTagFrame

section
variable {s : State} {p : PointId} {b : Byte} {id : TagId}

/-! ### Presence (R10, R11) -/

/-- A point that neither looks for a tag nor waits for one to return takes no action on PRESENT (R21). -/
theorem presentReport_ignored (h1 : (s.point p).state ≠ .ident) (h2 : (s.point p).state ≠ .paused) :
    presentReport p id s = s := by
  unfold presentReport
  split
  · rfl
  · split
    · rename_i h
      exact absurd h h1
    · rename_i h
      exact absurd h h2
    · rfl

/-- The first valid frame of a tag makes an ABSENT line PENDING (R10). -/
theorem tagByteTaken_first (ends : s.endsTagFrame p b id) (h : (s.line p).presence = .absent) :
    tagByteTaken p s = s.setLine p { s.line p with
      fifo := [], frame := [], charTimer := false, presence := .pending, candidate := some id
      lossTimer := true } := by
  simp [tagByteTaken_valid ends, validFrame, TagLine.frameTaken, setLine_setLine, h]

/-- A line that a frame has just made PRESENT (R10). -/
def TagLine.madePresent (id : TagId) (l : TagLine) : TagLine :=
  { l with
    fifo := [], frame := [], charTimer := false, presence := .present, current := some id
    candidate := none, lossTimer := true }

/-- A PRESENT line whose candidate a frame has just made its current ID (R11). -/
def TagLine.madeCurrent (id : TagId) (l : TagLine) : TagLine :=
  { l with
    fifo := [], frame := [], charTimer := false, current := some id, candidate := none
    lossTimer := true }

/-- The second valid frame of one ID makes the line PRESENT and is reported (R10). -/
theorem tagByteTaken_second (ends : s.endsTagFrame p b id) (h : (s.line p).presence = .pending)
    (hc : (s.line p).candidate = some id) :
    tagByteTaken p s = presentReport p id (s.setLine p ((s.line p).madePresent id)) := by
  simp [tagByteTaken_valid ends, validFrame, TagLine.frameTaken, TagLine.madePresent, setLine_setLine,
    h, hc]

/-- A valid frame that the presence logic takes without a report makes its ID the candidate: in PENDING any
but the candidate's, in PRESENT any but the current one's and the candidate's (R10, R11). -/
theorem tagByteTaken_candidate (ends : s.endsTagFrame p b id)
    (h : (s.line p).presence = .pending ∨
      ((s.line p).presence = .present ∧ (s.line p).current ≠ some id))
    (hc : (s.line p).candidate ≠ some id) :
    tagByteTaken p s = s.setLine p { s.line p with
      fifo := [], frame := [], charTimer := false, candidate := some id, lossTimer := true } := by
  rcases h with h | ⟨h, hd⟩
  · simp [tagByteTaken_valid ends, validFrame, TagLine.frameTaken, setLine_setLine, h, hc]
  · simp [tagByteTaken_valid ends, validFrame, TagLine.frameTaken, setLine_setLine, h, hc, hd]

/-- In PRESENT a valid frame of the current ID clears a candidate (R11). -/
theorem tagByteTaken_current (ends : s.endsTagFrame p b id) (h : (s.line p).presence = .present)
    (hc : (s.line p).current = some id) :
    tagByteTaken p s = s.setLine p { s.line p with
      fifo := [], frame := [], charTimer := false, candidate := none, lossTimer := true } := by
  simp [tagByteTaken_valid ends, validFrame, TagLine.frameTaken, setLine_setLine, h, hc]

/-- In PRESENT the second valid frame of another ID makes it the current one and is reported (R11). -/
theorem tagByteTaken_changed (ends : s.endsTagFrame p b id) (h : (s.line p).presence = .present)
    (hc : (s.line p).current ≠ some id) (hd : (s.line p).candidate = some id) :
    tagByteTaken p s = changedReport p (s.setLine p ((s.line p).madeCurrent id)) := by
  simp [tagByteTaken_valid ends, validFrame, TagLine.frameTaken, TagLine.madeCurrent, setLine_setLine,
    h, hc, hd]

/-- A line replaced: what every command that does no more leaves. -/
theorem drive_setLine (x : TagLine) :
    (drive (s.setLine p x)).line p = x ∧ onlyChanges [.line p] s (drive (s.setLine p x)) :=
  ⟨by rw [drive_line, State.setLine_line_same], (setLine_frame p x s).driven⟩

end

/-- Settles O39, by the rows of Table 1-3. -/
theorem presenceNeedsTwoFrames : Obligations.PresenceNeedsTwoFrames := by
  unfold Obligations.PresenceNeedsTwoFrames
  refine ⟨fun s p b id ends notIdent notPaused => ?valid, fun s p b ends => ?noTag⟩
  case valid =>
    refine ⟨drive (tagByteTaken p s), rfl, ?_⟩
    split
    next absent =>
      rw [tagByteTaken_first ends absent]
      exact drive_setLine _
    next pending =>
      by_cases second : (s.line p).candidate = some id
      · rw [tagByteTaken_second ends pending second,
          presentReport_ignored (s := s.setLine p _) notIdent notPaused, if_pos second]
        exact drive_setLine _
      · rw [tagByteTaken_candidate ends (.inl pending) second, if_neg second]
        exact drive_setLine _
    next present =>
      refine ⟨fun current => ?_, fun current candidate => ?_⟩
      · rw [tagByteTaken_current ends present current]
        exact drive_setLine _
      · rw [tagByteTaken_candidate ends (.inr ⟨present, current⟩) candidate]
        exact drive_setLine _
  case noTag =>
    have taken : noTagFrame p (s.setLine p (s.line p).frameTaken) = s.setLine p
        (match (s.line p).presence with
        | .absent => (s.line p).frameTaken
        | .pending => { (s.line p).frameTaken with
            presence := .absent, candidate := none, lossTimer := false }
        | .present => { (s.line p).frameTaken with candidate := none }) := by
      cases h : (s.line p).presence <;> simp [noTagFrame, TagLine.frameTaken, setLine_setLine, h]
    refine ⟨drive (tagByteTaken p s), rfl, ?_⟩
    rw [tagByteTaken_noTag ends, taken]
    exact ⟨(drive_setLine _).2, (drive_setLine _).1⟩

end Sys2Proof.Machine
end

