-- ==== Sys2Proof/Proofs/Timers.lean ====
section
/-! SUPPORT. The timers of a tag line and of a point, with the settlement of O41. -/

namespace Sys2Proof.Machine

section
variable {s : State} {p : PointId}

/-! ### What the timers of a line and of a point do -/

theorem tagTimeout_running (h : (s.line p).charTimer = true) :
    tagTimeout p s = markTagLine p (s.setLine p { s.line p with
      frame := [], charTimer := false, timeoutErrors := count16 (s.line p).timeoutErrors }) := by
  simp [tagTimeout, h]

/-- A line once its tag-loss timer has expired (R12). -/
def TagLine.lost (l : TagLine) : TagLine :=
  { l with presence := .absent, current := none, candidate := none, lossTimer := false }

/-- The tag-loss timer of a line that was not PRESENT makes it ABSENT and reports nothing (R12). -/
theorem tagLossExpired_silent (h : (s.line p).lossTimer = true) (hp : (s.line p).presence ≠ .present) :
    tagLossExpired p s = s.setLine p (s.line p).lost := by
  simp [tagLossExpired, h, hp, TagLine.lost]

/-- The tag-loss timer of a PRESENT line makes it ABSENT and reports it (R12). -/
theorem tagLossExpired_reported (h : (s.line p).lossTimer = true)
    (hp : (s.line p).presence = .present) :
    tagLossExpired p s = absentReport p (s.setLine p (s.line p).lost) := by
  simp [tagLossExpired, h, hp, TagLine.lost]

/-- ABSENT pauses the open fill of a tag (R30). -/
theorem absentReport_flowing (hr : s.role p = .delivery) (ht : (s.point p).ctx.tag.isSome = true)
    (h : (s.point p).state = .priming ∨ (s.point p).state = .flowing ∨
      (s.point p).state = .slowing) : absentReport p s = enterPaused p s := by
  rcases h with h | h | h <;> simp [absentReport, Point.byTag, hr, ht, h]

/-- A point whose prime time has passed (R27). -/
def Point.primed (x : Point) : Point := { x with timers := { x.timers with prime := false } }

/-- The prime time passes without a count: the point stays in PRIMING (R27). -/
theorem primeElapsed_uncounted (h : (s.point p).state = .priming)
    (ht : (s.point p).timers.prime = true) (hc : (s.point p).counted = false) :
    primeElapsed p s = s.setPoint p (s.point p).primed := by
  simp [primeElapsed, h, ht, hc, Point.primed]

/-- The prime time passes after a count: the point leaves PRIMING (R27). -/
theorem primeElapsed_counted (h : (s.point p).state = .priming)
    (ht : (s.point p).timers.prime = true) (hc : (s.point p).counted = true) :
    primeElapsed p s = leavePriming p (s.setPoint p (s.point p).primed) := by
  simp [primeElapsed, h, ht, hc, Point.primed]

/-- The state for which a point leaves PRIMING: SLOWING when its slow target is reached, else FLOWING (R27,
R29). -/
def State.flowState (s : State) (p : PointId) : PointState :=
  match (s.meter p).slowTarget with
  | some x => if x ≤ (s.meter p).live then .slowing else .flowing
  | none => .flowing

/-- A point that leaves PRIMING stops its prime timer and keeps its context. -/
theorem leavePriming_result :
    ((leavePriming p s).point p).state = s.flowState p ∧
      ((leavePriming p s).point p).timers.prime = false ∧
      ((leavePriming p s).point p).ctx = (s.point p).ctx := by
  cases target : (s.meter p).slowTarget with
  | none => simp [leavePriming, State.flowState, target]
  | some x =>
    by_cases reached : x ≤ (s.meter p).live <;> simp [leavePriming, State.flowState, target, reached]

/-- A refusal event in OFFERED keeps the context of the offer (R24). -/
theorem refuseEvent_offered (r : RefusalReason) (h : (s.point p).state = .offered) :
    refuseEvent p r s = enterRefused p r (s.point p).ctx s := by
  rw [refuseEvent, h]

theorem noFlowExpired_running (h : (s.point p).state = .priming ∨ (s.point p).state = .flowing)
    (ht : (s.point p).timers.noFlow = true) :
    noFlowExpired p s = markFault p (fun m => { m with noFlow := true }) (enterClosing p .noFlow s) := by
  have endable : (s.point p).state.endable = true := by
    rcases h with h | h <;> rw [h] <;> rfl
  rw [noFlowExpired, if_pos ⟨h, ht⟩, endCause_endable p _ endable]

end

/-- Settles O41, timer by timer. -/
theorem tagAndPointTimersEndTheirStates : Obligations.TagAndPointTimersEndTheirStates := by
  unfold Obligations.TagAndPointTimersEndTheirStates
  refine ⟨⟨?char, ?pending, ?present⟩, ?confirm, ?prime, ?noFlow, ?grace⟩
  case char =>
    intro s p running
    obtain ⟨line, mark, frame⟩ := markTagLine_setLine (s := s) (p := p) { s.line p with
      frame := [], charTimer := false, timeoutErrors := count16 (s.line p).timeoutErrors }
    refine ⟨drive (tagTimeout p s), rfl, ?_⟩
    rw [tagTimeout_running running]
    exact ⟨line, mark, frame.driven⟩
  case pending =>
    intro s p running pending
    refine ⟨drive (tagLossExpired p s), rfl, ?_⟩
    rw [tagLossExpired_silent running (by simp [pending])]
    exact drive_setLine _
  case present =>
    intro s p running present delivery tag flow
    refine ⟨drive (tagLossExpired p s), rfl, ?_⟩
    rw [tagLossExpired_reported running present, absentReport_flowing (s := s.setLine p _) delivery tag flow]
    have frame : onlyChanges [.point p, .line p] s (enterPaused p (s.setLine p (s.line p).lost)) :=
      (setLine_frame p _ s).trans (enterPaused_frame p _)
    have absent : ((enterPaused p (s.setLine p (s.line p).lost)).line p).presence = .absent := by
      rw [enterPaused, putPoint_line]
      exact TagLine.follow_absent _ _ (by simp [TagLine.lost])
    refine ⟨?_, ?_, ?_, ?_, absent, frame.driven⟩
    · simp [enterPaused]
    · simp [enterPaused]
    · simp [enterPaused]
    · simp [enterPaused, State.drivenStage, PointState.asksFor]
  case confirm =>
    intro s p offered running waits
    obtain ⟨state, ctx, cause⟩ := enterRefused_waits_result .confirmTimeout (s.point p).ctx waits
    have expired : confirmExpired p s = enterRefused p .confirmTimeout (s.point p).ctx s := by
      rw [confirmExpired, if_pos ⟨offered, running⟩, refuseEvent_offered _ offered]
    refine ⟨drive (confirmExpired p s), rfl, ?_⟩
    rw [expired, drive_point]
    exact ⟨state, congrArg FillContext.refusal ctx, cause,
      (enterRefused_frame p _ _ s (.inr waits)).driven⟩
  case prime =>
    intro s p priming running
    have frame := (primeElapsed_frame (l := [.point p]) p s).driven
    refine ⟨drive (primeElapsed p s), rfl, ?_⟩
    rw [drive_point]
    by_cases counted : (s.point p).counted = false
    · rw [primeElapsed_uncounted priming running counted] at frame ⊢
      rw [if_pos counted, State.setPoint_point_same]
      exact ⟨rfl, rfl, priming, frame⟩
    · rw [primeElapsed_counted priming running (eq_true_of_ne_false counted)] at frame ⊢
      obtain ⟨state, prime, ctx⟩ :=
        leavePriming_result (p := p) (s := s.setPoint p (s.point p).primed)
      rw [State.setPoint_point_same] at ctx
      rw [if_neg counted]
      exact ⟨prime, ctx, state, frame⟩
  case noFlow =>
    intro s p flow running
    obtain ⟨state, reason, -⟩ := enterClosing_closingWith (s := s) p .noFlow
    refine ⟨drive (noFlowExpired p s), rfl, ?_⟩
    rw [noFlowExpired_running flow running, drive_point]
    exact ⟨state, reason, by simp [markFault],
      ((enterClosing_frame p _ s).trans (markFault_frame p _ _)).driven⟩
  case grace =>
    intro s p paused running
    obtain ⟨state, reason, timers⟩ := (enterClosing_closingWith (s := s) p .tagLost).driven
    refine ⟨drive (graceExpired p s), rfl, ?_⟩
    rw [graceExpired, if_pos ⟨paused, running⟩]
    exact ⟨state, reason, timers, (enterClosing_frame p _ s).driven⟩

end Sys2Proof.Machine
end

