-- ==== Sys2Proof/Proofs/ManualId.lean ====
section
/-! SUPPORT. What an offer leaves, and MANUAL_ID (R16, R22), with the settlement of O24. -/

namespace Sys2Proof.Machine

section
variable {s : State} {p : PointId} {m : RosterRecord}

/-! ### What an offer leaves -/

/-- A point is REFUSED with a reason and a context, and raises its POINT cause (R19, R44). -/
def State.refusedIn (t : State) (p : PointId) (r : RefusalReason) (c : FillContext) : Prop :=
  (t.point p).state = .refused ∧ (t.point p).ctx = { c with refusal := some r } ∧
    t.port.attention.points[p] = some (.refused r)

/-- The context of a point that a lookup or an offer refuses: it names the machine, if one was found (R19). -/
def namedCtx (found : Option RosterRecord) : FillContext :=
  { FillContext.empty with named := found.map (fun m => (m.fleet, m.account)) }

/-- A lookup that fails refuses a point that waits with its outcome (R22). -/
theorem identify_refused {found : Option RosterRecord} {r : RefusalReason} (tag : Option TagId)
    (h : lookupOutcome s p found = .error r) (hw : s.waits p) :
    (identify p found tag s).1.refusedIn p r (namedCtx found) ∧
      onlyChanges [.point p, .line p, .attention] s (identify p found tag s).1 := by
  rw [identify_error tag h]
  exact ⟨enterRefused_waits_result r _ hw, enterRefused_frame p r _ s (.inr hw)⟩

/-- A check that fails refuses a point that waits with its reason (R23). -/
theorem offerMachine_refusedIn {r : RefusalReason} (tag : Option TagId)
    (h : s.firstRefusal p m (s.pp p).defaultPreset = some r) (hw : s.waits p) :
    (offerMachine p m tag s).refusedIn p r (namedCtx (some m)) ∧
      onlyChanges [.point p, .line p, .attention] s (offerMachine p m tag s) := by
  rw [offerMachine_refused tag h]
  exact ⟨enterRefused_waits_result r _ hw, enterRefused_frame p r _ s (.inr hw)⟩

/-- A point has an offer that waits for its confirm (R23, R44). -/
def State.offeredWith (t : State) (p : PointId) (n : Nat) (c : FillContext) : Prop :=
  (t.point p).state = .offered ∧ (t.point p).timers = { PointTimers.stopped with confirm := true } ∧
    (t.point p).ctx = c ∧ t.port.attention.points[p] = some (.offer n)

/-- An offer whose checks pass waits for its confirm, announced with the least of its terms (R23). -/
theorem offerMachine_offeredWith (tag : Option TagId)
    (h : s.firstRefusal p m (s.pp p).defaultPreset = none) (ha : (s.pp p).autoConfirm = false) :
    (offerMachine p m tag s).offeredWith p (s.presetOf p m (s.pp p).defaultPreset)
        (offerCtx m tag (s.presetOf p m (s.pp p).defaultPreset)) ∧
      onlyChanges [.point p, .line p, .attention] s (offerMachine p m tag s) := by
  rw [offerMachine_offered tag h ha]
  refine ⟨⟨?_, ?_, ?_, ?_⟩, (putPoint_frame p _ s).trans (raisePoint_frame p _ _)⟩ <;>
    simp [raisePoint]

/-! ### MANUAL_ID (R16, R22) -/

theorem exec_manualId {b : Byte} {fleet : BitVec 16} (h : s.ready) (hm : s.mode = .run) :
    exec (.manualId b fleet) s =
      .next (drive (respond 0x08 (doManualId b fleet s).2 (doManualId b fleet s).1)) :=
  exec_taken rfl rfl h (by simp [hm])

/-- MANUAL_ID of a machine that the lookup finds is ACCEPTED, whatever the offer comes to. -/
theorem doManualId_found {b : Byte} {fleet : BitVec 16} (hb : pointOf b = some p)
    (hr : s.role p = .delivery) (hi : (s.point p).state = .ident)
    (hf : s.machineByFleet fleet.toNat = some m) (h : lookupOutcome s p (some m) = .ok m) :
    doManualId b fleet s = (offerMachine p m none s, ⟨.accepted, []⟩) := by
  simp [doManualId, atPoint, hb, hr, hi, hf, identify_ok none h, accept]

/-- MANUAL_ID of a machine that the lookup does not find is REFUSED with its outcome. -/
theorem doManualId_refused {b : Byte} {fleet : BitVec 16} {found : Option RosterRecord}
    {r : RefusalReason} (hb : pointOf b = some p) (hr : s.role p = .delivery)
    (hi : (s.point p).state = .ident) (hf : s.machineByFleet fleet.toNat = found)
    (h : lookupOutcome s p found = .error r) :
    doManualId b fleet s = ((identify p found none s).1, ⟨.refused, [.num 1 r.code]⟩) := by
  simp [doManualId, atPoint, hb, hr, hi, hf, identify_error none h, refusedFor]

/-- MANUAL_ID of a point that no tag could be read at is declined (R17, R22). -/
theorem doManualId_declined {b : Byte} {fleet : BitVec 16} (hb : pointOf b = some p)
    (h : s.role p ≠ .delivery ∨ (s.point p).state ≠ .ident) :
    doManualId b fleet s =
      (s, ⟨if s.role p = .delivery then .wrongState else .wrongRole, []⟩) := by
  by_cases hr : s.role p = .delivery
  · have hi : (s.point p).state ≠ .ident := h.resolve_left (Classical.not_not.2 hr)
    simp [doManualId, atPoint, hb, hr, hi, decline]
  · simp [doManualId, atPoint, hb, hr, decline]

theorem pointOf_outside {b : Byte} (h : b.toNat = 0 ∨ 4 < b.toNat) : pointOf b = none := by
  unfold pointOf
  split
  · omega
  · omega
  · omega
  · omega
  · rfl

end

theorem respond_drive_answered (code : Byte) (a : Answer) (s : State) :
    answered (drive (respond code a s)) code a.result a.body :=
  ⟨rfl, rfl⟩

/-- A command's work read at a point through the response and the outputs. -/
theorem respond_drive_point (code : Byte) (a : Answer) (s : State) (p : PointId) :
    (drive (respond code a s)).point p =
      { s.point p with valve := (respond code a s).drivenStage p } := by
  rw [drive_point]
  rfl

/-- A request answered adds the exchange to what its work changed. -/
theorem onlyChanges.responded {l m : List Part} {s t : State} (h : onlyChanges l s t) (code : Byte)
    (a : Answer) (sub : ∀ x ∈ l, x ∈ m) (hx : Part.exchange ∈ m := by simp) :
    onlyChanges m s (drive (respond code a t)) :=
  ((h.mono sub).trans (respond_frame code a t hx)).driven

/-- Settles O24, case by case of the lookup (R16), of the checks of the offer (R23) and of the point. -/
theorem manualIdMakesAnOffer : Obligations.ManualIdMakesAnOffer := by
  unfold Obligations.ManualIdMakesAnOffer
  refine ⟨?offered, ?checkFails, ?unknown, ?lookupFails, ?opens, ?declined, ?invalid⟩
  case offered =>
    intro s b p fleet m q n ready run point delivery ident found free product permitted idle slots
      terms fits waitsConfirm
    have lookup := lookupOutcome_found free product permitted
    have passes : s.firstRefusal p m (s.pp p).defaultPreset = none :=
      firstRefusal_none_iff.2 ⟨idle, slots, terms ▸ fits⟩
    obtain ⟨⟨state, timers, ctx, cause⟩, frame⟩ := offerMachine_offeredWith none passes waitsConfirm
    refine ⟨_, exec_manualId ready run, ?_⟩
    rw [doManualId_found point delivery ident found lookup, respond_drive_point]
    subst terms
    exact ⟨state, timers, ctx, cause, respond_drive_answered _ _ _, frame.responded _ _ (by simp)⟩
  case checkFails =>
    intro s b p fleet m q r ready run point delivery ident found free product permitted waits fails
    have lookup := lookupOutcome_found free product permitted
    obtain ⟨⟨state, ctx, cause⟩, frame⟩ := offerMachine_refusedIn none fails waits
    refine ⟨_, exec_manualId ready run, ?_⟩
    rw [doManualId_found point delivery ident found lookup, respond_drive_point]
    exact ⟨state, ctx, cause, respond_drive_answered _ _ _, frame.responded _ _ (by simp)⟩
  case unknown =>
    intro s b p fleet ready run point delivery ident unknown waits
    obtain ⟨⟨state, ctx, cause⟩, frame⟩ := identify_refused (found := none) none rfl waits
    refine ⟨_, exec_manualId ready run, ?_⟩
    rw [doManualId_refused point delivery ident unknown rfl, respond_drive_point]
    exact ⟨state, ctx, cause, respond_drive_answered _ _ _, frame.responded _ _ (by simp)⟩
  case lookupFails =>
    intro s b p fleet m q ready run point delivery ident found product fails waits
    have lookup := lookupOutcome_refused product fails
    have code : (((if m.barred = true then RefusalReason.barred else .wrongProduct).code : Nat) : Int) =
        if m.barred = true then 2 else 3 := by
      split <;> rfl
    obtain ⟨⟨state, ctx, cause⟩, frame⟩ := identify_refused none lookup waits
    refine ⟨_, exec_manualId ready run, ?_⟩
    rw [doManualId_refused point delivery ident found lookup, respond_drive_point, ← code]
    exact ⟨⟨state, ctx, cause⟩, respond_drive_answered _ _ _, frame.responded _ _ (by simp)⟩
  case opens =>
    intro s b p fleet m q ready run point delivery ident found free product permitted passes auto
    have lookup := lookupOutcome_found free product permitted
    have opened := offerMachine_autoOpened none delivery passes auto
    refine ⟨_, exec_manualId ready run, ?_⟩
    rw [doManualId_found point delivery ident found lookup, respond_drive_point]
    exact ⟨opened.state, opened.timers, opened.ctx, opened.counting, opened.live, opened.nextSeq,
      opened.held, opened.record, opened.others, respond_drive_answered _ _ _,
      opened.frame.responded _ _ (by simp [openParts])⟩
  case declined =>
    intro s b p fleet ready run point h
    refine ⟨_, exec_manualId ready run, ?_⟩
    rw [doManualId_declined point h]
    exact ⟨respond_drive_answered _ _ _, (onlyChanges_refl [] s).responded _ _ (by simp)⟩
  case invalid =>
    intro s b fleet ready run outside
    refine ⟨_, exec_manualId ready run, ?_⟩
    have invalid : doManualId b fleet s = (s, ⟨.invalid, []⟩) := by
      simp [doManualId, atPoint, pointOf_outside outside, decline]
    rw [invalid]
    exact ⟨respond_drive_answered _ _ _, (onlyChanges_refl [] s).responded _ _ (by simp)⟩

end Sys2Proof.Machine
end

