-- ==== Sys2Proof/Proofs/TagReports.lean ====
section
/-! SUPPORT. PRESENT, CHANGED and ABSENT at a delivery point, with the settlement of O40. -/

namespace Sys2Proof.Machine

section
variable {s : State} {p : PointId} {m : RosterRecord} {id : TagId}

/-! ### The line of a point whose work goes on (R5) -/

/-- In RUN the tag line of a point that stays in use keeps what it has. -/
theorem putPoint_line_kept {x : Point} (run : s.mode = .run) (powered : (s.line p).powered = true)
    (hx : linePowered .run x.state = true) : (putPoint p x s).line p = s.line p := by
  rw [putPoint_line, run, TagLine.follow_of_powered powered hx]

theorem enterRefused_line_kept (r : RefusalReason) (c : FillContext) (run : s.mode = .run)
    (powered : (s.line p).powered = true) (hw : s.waits p) :
    (enterRefused p r c s).line p = s.line p := by
  rw [enterRefused_waits p r c hw]
  exact putPoint_line_kept run powered rfl

theorem offerMachine_line_kept (tag : Option TagId) (hr : s.role p = .delivery) (run : s.mode = .run)
    (powered : (s.line p).powered = true) (hw : s.waits p) :
    (offerMachine p m tag s).line p = s.line p := by
  cases h : s.firstRefusal p m (s.pp p).defaultPreset with
  | some r =>
    rw [offerMachine_refused tag h]
    exact enterRefused_line_kept r _ run powered hw
  | none =>
    cases ha : (s.pp p).autoConfirm with
    | false =>
      rw [offerMachine_offered tag h ha]
      exact putPoint_line_kept run powered rfl
    | true =>
      rw [(offerMachine_autoOpened tag hr h ha).line, run]
      exact TagLine.follow_of_powered powered rfl

theorem identify_line_kept (found : Option RosterRecord) (tag : Option TagId)
    (hr : s.role p = .delivery) (run : s.mode = .run) (powered : (s.line p).powered = true)
    (hw : s.waits p) : (identify p found tag s).1.line p = s.line p := by
  cases h : lookupOutcome s p found with
  | error r =>
    rw [identify_error tag h]
    exact enterRefused_line_kept r _ run powered hw
  | ok m =>
    rw [identify_ok tag h]
    exact offerMachine_line_kept tag hr run powered hw

/-! ### PRESENT at a delivery point (R22, R31) -/

theorem presentReport_ident (hr : s.role p = .delivery) (h : (s.point p).state = .ident) :
    presentReport p id s = (identify p (s.machineByTag id) (some id) s).1 := by
  simp [presentReport, hr, h]

theorem presentReport_paused (hr : s.role p = .delivery) (h : (s.point p).state = .paused) :
    presentReport p id s =
      if (s.point p).ctx.tag = some id then enterPriming p s else enterClosing p .tagChanged s := by
  simp [presentReport, hr, h]

theorem presentReport_line_kept (hr : s.role p = .delivery) (run : s.mode = .run)
    (powered : (s.line p).powered = true) (hw : s.waits p) :
    (presentReport p id s).line p = s.line p := by
  by_cases ident : (s.point p).state = .ident
  · rw [presentReport_ident hr ident]
    exact identify_line_kept _ _ hr run powered hw
  by_cases paused : (s.point p).state = .paused
  · rw [presentReport_paused hr paused]
    split <;> exact putPoint_line_kept run powered rfl
  · rw [presentReport_ignored ident paused]

/-! ### CHANGED and ABSENT at a delivery point (R24, R30, R32) -/

/-- Work that was identified by hand does not react to CHANGED. -/
theorem changedReport_byHand (h : (s.point p).ctx.tag = none) : changedReport p s = s := by
  simp [changedReport, Point.byTag, h]

/-- Work that was identified by hand does not react to ABSENT. -/
theorem absentReport_byHand (h : (s.point p).ctx.tag = none) : absentReport p s = s := by
  simp [absentReport, Point.byTag, h]

/-- What CHANGED does to work identified by tag: an offer is refused, an open fill ends (R24, R32). -/
theorem changedReport_byTag (hr : s.role p = .delivery) (ht : (s.point p).ctx.tag ≠ none) :
    changedReport p s = match (s.point p).state with
      | .offered => enterRefused p .tagChanged (s.point p).ctx s
      | .priming | .flowing | .slowing => enterClosing p .tagChanged s
      | _ => s := by
  have byTag : (s.point p).byTag = true := Option.isSome_iff_ne_none.2 ht
  cases h : (s.point p).state <;> simp [changedReport, hr, byTag, h, refuseEvent]

theorem changedReport_offered (hr : s.role p = .delivery) (ht : (s.point p).ctx.tag ≠ none)
    (h : (s.point p).state = .offered) :
    changedReport p s = enterRefused p .tagChanged (s.point p).ctx s := by
  rw [changedReport_byTag hr ht, h]

theorem changedReport_flowing (hr : s.role p = .delivery) (ht : (s.point p).ctx.tag ≠ none)
    (h : (s.point p).state = .priming ∨ (s.point p).state = .flowing ∨
      (s.point p).state = .slowing) : changedReport p s = enterClosing p .tagChanged s := by
  rcases h with h | h | h <;> rw [changedReport_byTag hr ht, h]

/-- CHANGED acts on offers and on open fills in flow alone. -/
theorem changedReport_other (h : (s.point p).state ≠ .offered) (h1 : (s.point p).state ≠ .priming)
    (h2 : (s.point p).state ≠ .flowing) (h3 : (s.point p).state ≠ .slowing) :
    changedReport p s = s := by
  unfold changedReport
  split
  · rfl
  · split <;> simp_all

/-- ABSENT returns an offer made by tag to IDENT (R24). -/
theorem absentReport_offered (hr : s.role p = .delivery) (ht : (s.point p).ctx.tag ≠ none)
    (h : (s.point p).state = .offered) :
    absentReport p s =
      putPoint p { s.point p with state := .ident, timers := .stopped, ctx := .empty } s := by
  have byTag : (s.point p).byTag = true := Option.isSome_iff_ne_none.2 ht
  simp [absentReport, hr, byTag, h]

theorem changedReport_frame (hr : s.role p = .delivery) (hw : s.waits p) :
    onlyChanges [.point p, .line p, .attention] s (changedReport p s) := by
  by_cases ht : (s.point p).ctx.tag = none
  · rw [changedReport_byHand ht]
    exact onlyChanges_refl _ _
  rw [changedReport_byTag hr ht]
  split
  · exact enterRefused_frame p _ _ s (.inr hw)
  · exact enterClosing_frame p _ s
  · exact enterClosing_frame p _ s
  · exact enterClosing_frame p _ s
  · exact onlyChanges_refl _ _

theorem changedReport_line_kept (hr : s.role p = .delivery) (run : s.mode = .run)
    (powered : (s.line p).powered = true) (hw : s.waits p) :
    (changedReport p s).line p = s.line p := by
  by_cases ht : (s.point p).ctx.tag = none
  · rw [changedReport_byHand ht]
  rw [changedReport_byTag hr ht]
  split
  · exact enterRefused_line_kept _ _ run powered hw
  · exact putPoint_line_kept run powered rfl
  · exact putPoint_line_kept run powered rfl
  · exact putPoint_line_kept run powered rfl
  · rfl

end
/-- What PRESENT does at an IDENT delivery point that waits, by the lookup of its tag and the checks of its
offer (R15, R22, R23, R44, R83). -/
structure PresentLookedUp (p : PointId) (id : TagId) (s t : State) : Prop where
  unknown : s.machineByTag id = none → t.refusedIn p .unknownTag FillContext.empty ∧
    onlyChanges [.point p, .line p, .attention] s t
  lookupFails : ∀ (m : RosterRecord) (q : Fin 8), s.machineByTag id = some m →
    s.productAt p = q.val + 1 → m.barred = true ∨ m.products.getLsbD q.val = false →
    t.refusedIn p (if m.barred = true then .barred else .wrongProduct) (namedCtx (some m)) ∧
      onlyChanges [.point p, .line p, .attention] s t
  checkFails : ∀ (m : RosterRecord) (q : Fin 8) (r : RefusalReason), s.machineByTag id = some m →
    s.productAt p = q.val + 1 → ¬ (m.barred = true ∨ m.products.getLsbD q.val = false) →
    s.firstRefusal p m (s.pp p).defaultPreset = some r →
    t.refusedIn p r (namedCtx (some m)) ∧ onlyChanges [.point p, .line p, .attention] s t
  offered : ∀ (m : RosterRecord) (q : Fin 8), s.machineByTag id = some m →
    s.productAt p = q.val + 1 → ¬ (m.barred = true ∨ m.products.getLsbD q.val = false) →
    s.firstRefusal p m (s.pp p).defaultPreset = none → (s.pp p).autoConfirm = false →
    t.offeredWith p (s.presetOf p m (s.pp p).defaultPreset)
        (offerCtx m (some id) (s.presetOf p m (s.pp p).defaultPreset)) ∧
      onlyChanges [.point p, .line p, .attention] s t
  opened : ∀ (m : RosterRecord) (q : Fin 8), s.machineByTag id = some m →
    s.productAt p = q.val + 1 → ¬ (m.barred = true ∨ m.products.getLsbD q.val = false) →
    s.firstRefusal p m (s.pp p).defaultPreset = none → (s.pp p).autoConfirm = true →
    AutoOpened p m (some id) s t

theorem presentReport_lookedUp {s : State} {p : PointId} (id : TagId) (hr : s.role p = .delivery)
    (hi : (s.point p).state = .ident) (hw : s.waits p) :
    PresentLookedUp p id s (presentReport p id s) := by
  have found : ∀ (m : RosterRecord) (q : Fin 8), s.machineByTag id = some m →
      s.productAt p = q.val + 1 → ¬ (m.barred = true ∨ m.products.getLsbD q.val = false) →
      (identify p (s.machineByTag id) (some id) s).1 = offerMachine p m (some id) s := by
    intro m q hm product passes
    obtain ⟨free, permitted⟩ := not_or.1 passes
    rw [hm, identify_ok (some id) (lookupOutcome_found (eq_false_of_ne_true free) product
      (eq_true_of_ne_false permitted))]
  rw [presentReport_ident hr hi]
  refine ⟨fun hm => ?_, fun m q hm product fails => ?_, fun m q r hm product passes fails => ?_,
    fun m q hm product passes terms auto => ?_, fun m q hm product passes terms auto => ?_⟩
  · rw [hm]
    exact identify_refused (some id) rfl hw
  · rw [hm]
    exact identify_refused (some id) (lookupOutcome_refused product fails) hw
  · rw [found m q hm product passes]
    exact offerMachine_refusedIn (some id) fails hw
  · rw [found m q hm product passes]
    exact offerMachine_offeredWith (some id) terms auto
  · rw [found m q hm product passes]
    exact offerMachine_autoOpened (some id) hr terms auto

/-- Settles O40, by the three reports and the states of the point they reach. -/
theorem tagReportsActAtTheirPoint : Obligations.TagReportsActAtTheirPoint := by
  unfold Obligations.TagReportsActAtTheirPoint
  refine ⟨?present, ?changed, ?absent⟩
  case present =>
    intro s p b id run delivery powered ends pending candidate
    refine ⟨drive (tagByteTaken p s), rfl, ?_⟩
    rw [tagByteTaken_second ends pending candidate, drive_point]
    have framed : ∀ {l : List Part} {t : State},
        onlyChanges l (s.setLine p ((s.line p).madePresent id)) t → Part.line p ∈ l →
        onlyChanges l s (drive t) :=
      fun frame hl => ((setLine_frame p _ s hl).trans frame).driven
    have line := State.setLine_line_same s p ((s.line p).madePresent id)
    refine ⟨fun waits => ?_, fun ident waits => ?_, fun paused => ?_⟩
    · rw [drive_line, presentReport_line_kept (s := s.setLine p _) delivery run
        (by rw [line]; exact powered) waits, line]
      exact ⟨rfl, rfl⟩
    · have result := presentReport_lookedUp (s := s.setLine p ((s.line p).madePresent id)) id
        delivery ident waits
      refine ⟨fun unknown => ?_, fun m q found product => ?_⟩
      · obtain ⟨⟨state, ctx, cause⟩, frame⟩ := result.unknown unknown
        exact ⟨⟨by rw [drive_point]; exact state, by rw [drive_point]; exact ctx, cause⟩,
          framed frame (by simp)⟩
      by_cases fails : m.barred = true ∨ m.products.getLsbD q.val = false
      · obtain ⟨⟨state, ctx, cause⟩, frame⟩ := result.lookupFails m q found product fails
        rw [if_pos fails]
        exact ⟨state, ctx, framed frame (by simp)⟩
      rw [if_neg fails]
      split
      next r refused =>
        obtain ⟨⟨state, ctx, cause⟩, frame⟩ := result.checkFails m q r found product fails refused
        exact ⟨state, ctx, cause, framed frame (by simp)⟩
      next passes =>
        by_cases auto : (s.pp p).autoConfirm = false
        · obtain ⟨⟨state, timers, ctx, cause⟩, frame⟩ :=
            result.offered m q found product fails passes auto
          rw [if_pos auto]
          exact ⟨state, ctx, timers, cause, framed frame (by simp)⟩
        · have opened := result.opened m q found product fails passes
            (eq_true_of_ne_false auto)
          rw [if_neg auto]
          exact ⟨opened.state, opened.ctx, opened.counting, opened.nextSeq, opened.held⟩
    · rw [presentReport_paused (s := s.setLine p _) delivery paused, State.setLine_point]
      by_cases same : (s.point p).ctx.tag = some id
      · rw [if_pos same, if_pos same]
        exact ⟨by simp [enterPriming], framed (enterPriming_frame p _) (by simp)⟩
      · rw [if_neg same, if_neg same]
        exact ⟨(enterClosing_closingWith p _).driven, framed (enterClosing_frame p _ _) (by simp)⟩
  case changed =>
    intro s p b id run delivery powered ends present candidate current waits
    have line := State.setLine_line_same s p ((s.line p).madeCurrent id)
    have frame := changedReport_frame (s := s.setLine p ((s.line p).madeCurrent id)) delivery waits
    refine ⟨drive (tagByteTaken p s), rfl, ?_⟩
    rw [tagByteTaken_changed ends present current candidate, drive_line,
      changedReport_line_kept (s := s.setLine p _) delivery run (by rw [line]; exact powered) waits,
      line]
    refine ⟨present, rfl, ((setLine_frame p _ s).trans frame).driven, ?_⟩
    have stands : (Part.point p).same s (drive (s.setLine p ((s.line p).madeCurrent id))) :=
      (setLine_frame (l := [.line p]) p _ s).driven.2 (.point p) (by simp)
    by_cases byHand : (s.point p).ctx.tag = none
    · rw [if_pos byHand, changedReport_byHand (s := s.setLine p _) byHand]
      exact stands
    rw [if_neg byHand]
    split
    next offered =>
      rw [changedReport_offered (s := s.setLine p _) delivery byHand offered, drive_point]
      exact enterRefused_waits_result (s := s.setLine p _) .tagChanged _ waits
    next flow =>
      rw [changedReport_flowing (s := s.setLine p _) delivery byHand (.inl flow)]
      exact (enterClosing_closingWith p _).driven
    next flow =>
      rw [changedReport_flowing (s := s.setLine p _) delivery byHand (.inr (.inl flow))]
      exact (enterClosing_closingWith p _).driven
    next flow =>
      rw [changedReport_flowing (s := s.setLine p _) delivery byHand (.inr (.inr flow))]
      exact (enterClosing_closingWith p _).driven
    next notOffered notPriming notFlowing notSlowing =>
      rw [changedReport_other (s := s.setLine p _) notOffered notPriming notFlowing notSlowing]
      exact stands
  case absent =>
    intro s p delivery running present offered
    refine ⟨drive (tagLossExpired p s), rfl, ?_⟩
    rw [tagLossExpired_reported running present]
    by_cases byHand : (s.point p).ctx.tag = none
    · rw [if_pos byHand, absentReport_byHand (s := s.setLine p _) byHand]
      exact ⟨(setLine_frame (l := [.line p]) p _ s).driven.2 (.point p) (by simp),
        (setLine_frame p _ s).driven⟩
    · rw [if_neg byHand, absentReport_offered (s := s.setLine p _) delivery byHand offered]
      exact ⟨by simp, ((setLine_frame p _ s).trans (putPoint_frame p _ _)).driven⟩

end Sys2Proof.Machine
end
